-- ==== Sys2Proof/Word.lean ====
section
/-! DEFINITION. The word types of the block: widths fixed by 00_scope.md R9 and 30_encoding.md R70. -/

namespace Sys2Proof

/-- A 32-bit bus data word; also the width of PERIOD, TVAL and COUNT (00 R9). -/
abbrev Word := BitVec 32

/-- A 16-bit value: COOLDOWN, a cooldown counter `dbt`, or a vector with one bit a lane
(00 R9: N is at most 16). -/
abbrev Half := BitVec 16

/-- The 11-bit transaction descriptor TD (30 R70). -/
abbrev TD := BitVec 11

/-- The 8-bit byte offset in the register window (30 R73). -/
abbrev Offset := BitVec 8

end Sys2Proof
end

