-- ==== Sys2Proof/Syntax.lean ====
section
/-! DEFINITION. The 14 bus transactions of 30_encoding.md R79, the registers of R74 and the error causes of
60_exceptions.md R201. -/

namespace Sys2Proof

/-- The legal transactions, one constructor for each row of spec/opcode_table.json (30 R79). A write carries
its data word; RD_DBCNT carries its index field TD[5:2] (30 R78). -/
inductive Instr where
  /-- RD_CTRL, 41 R131. -/
  | rdCtrl
  /-- WR_CTRL, 41 R132. -/
  | wrCtrl (wdata : Word)
  /-- RD_PERIOD, 41 R133. -/
  | rdPeriod
  /-- WR_PERIOD, 41 R134. -/
  | wrPeriod (wdata : Word)
  /-- RD_TVAL, 41 R135. -/
  | rdTval
  /-- RD_COUNT, 41 R136. -/
  | rdCount
  /-- WR_COUNT, 41 R137. -/
  | wrCount (wdata : Word)
  /-- RD_COOLDOWN, 42 R151. -/
  | rdCooldown
  /-- WR_COOLDOWN, 42 R152. -/
  | wrCooldown (wdata : Word)
  /-- RD_CFG, 42 R153. -/
  | rdCfg
  /-- RD_STATE, 42 R154. -/
  | rdState
  /-- RD_DBCNT, 42 R155. -/
  | rdDbcnt (i : BitVec 4)
  /-- RD_CHANGED, 43 R171. -/
  | rdChanged
  /-- RD_EVENT, 43 R172. -/
  | rdEvent
  deriving DecidableEq, Repr

/-- The registers of the map (30 R74). -/
inductive Reg where
  | ctrl | period | tval | count | cooldown | cfg | state | changed | event
  /-- DBCNT[i], the slot's index (30 R78). -/
  | dbcnt (i : BitVec 4)
  deriving DecidableEq, Repr

/-- The causes of an ERROR response (60 R201), in their order of priority (60 R202). -/
inductive Cause where
  /-- 1: TD[10:9] is not 0b10. -/
  | size
  /-- 2: TD[1:0] is not 0b00. -/
  | align
  /-- 3: OFFSET is not in the map, or a DBCNT index is N or more. -/
  | unmapped
  /-- 4: a write to a register that has no write operation. -/
  | readonly
  /-- 5: WR_PERIOD or WR_COOLDOWN while EN = 1. -/
  | locked
  /-- 6: WR_CTRL would set EN while PERIOD = 0. -/
  | zeroPeriod
  deriving DecidableEq, Repr

/-- What the decoder answers: an operation, or the cause of an error (30 R77, "Op | Error(cause)"). -/
inductive Decoded where
  | op (i : Instr)
  | error (cause : Cause)
  deriving DecidableEq, Repr

/-- The 3-bit cause code of 60 R201; 0 would mean no error, 7 is not used. -/
def Cause.code : Cause → BitVec 3
  | .size => 1#3
  | .align => 2#3
  | .unmapped => 3#3
  | .readonly => 4#3
  | .locked => 5#3
  | .zeroPeriod => 6#3

end Sys2Proof
end

