-- ==== Sys2Proof/WellFormed.lean ====
section
/-! DEFINITION. Which transactions a block with N channels has. -/

namespace Sys2Proof

/-- The one operand check of the encoding: an RD_DBCNT index is below N (30 R78, 42 R155). Every data word
is legal to write (30 R75). -/
def Instr.wellFormed (n : Nat) : Instr → Bool
  | .rdDbcnt i => decide (i.toNat < n)
  | .rdCtrl => true
  | .wrCtrl _ => true
  | .rdPeriod => true
  | .wrPeriod _ => true
  | .rdTval => true
  | .rdCount => true
  | .wrCount _ => true
  | .rdCooldown => true
  | .wrCooldown _ => true
  | .rdCfg => true
  | .rdState => true
  | .rdChanged => true
  | .rdEvent => true

/-- The operations that are writes (30 R72). -/
def Instr.isWrite : Instr → Bool
  | .wrCtrl _ => true
  | .wrPeriod _ => true
  | .wrCount _ => true
  | .wrCooldown _ => true
  | .rdCtrl => false
  | .rdPeriod => false
  | .rdTval => false
  | .rdCount => false
  | .rdCooldown => false
  | .rdCfg => false
  | .rdState => false
  | .rdDbcnt _ => false
  | .rdChanged => false
  | .rdEvent => false

end Sys2Proof
end

