-- ==== Sys2Proof/Decode.lean ====
section
/-! DEFINITION. Decoding and encoding of transaction descriptors (30_encoding.md). A descriptor is a bundle of
bus signals, not bytes of a program: there is no other stored form (log entry 9). -/

namespace Sys2Proof

/-- SIZE = TD[10:9] (30 R70, R71). -/
def tdSize (td : TD) : BitVec 2 := td.extractLsb' 9 2

/-- W = TD[8] (30 R70, R72). -/
def tdWrite (td : TD) : Bool := td.getLsbD 8

/-- OFFSET = TD[7:0] (30 R70, R73). -/
def tdOffset (td : TD) : Offset := td.extractLsb' 0 8

/-- The packed descriptor of the bus signals `size`, `write` and `offset` (30 R70). -/
def packTD (size : BitVec 2) (write : Bool) (off : Offset) : TD :=
  size ++ (BitVec.ofBool write ++ off)

/-- The one legal SIZE, a 32-bit word (30 R71). -/
def wordSize : BitVec 2 := 0b10#2

/-- The register map (30 R74), for a block with `n` channels; `none` is a reserved offset. The offsets
0x40..0x7C are those whose two top bits are 0b01; their index is OFFSET[5:2] (30 R78). -/
def regAt (n : Nat) (off : Offset) : Option Reg :=
  if off = 0x00#8 then some .ctrl
  else if off = 0x04#8 then some .period
  else if off = 0x08#8 then some .tval
  else if off = 0x0C#8 then some .count
  else if off = 0x10#8 then some .cooldown
  else if off = 0x14#8 then some .cfg
  else if off = 0x18#8 then some .state
  else if off = 0x1C#8 then some .changed
  else if off = 0x20#8 then some .event
  else if off.extractLsb' 6 2 = 0b01#2 ∧ (off.extractLsb' 2 4).toNat < n then
    some (.dbcnt (off.extractLsb' 2 4))
  else none

/-- The offset of a register (30 R74). -/
def offsetOf : Reg → Offset
  | .ctrl => 0x00#8
  | .period => 0x04#8
  | .tval => 0x08#8
  | .count => 0x0C#8
  | .cooldown => 0x10#8
  | .cfg => 0x14#8
  | .state => 0x18#8
  | .changed => 0x1C#8
  | .event => 0x20#8
  | .dbcnt i => 0b01#2 ++ (i ++ 0b00#2)

/-- The read operation of a register (30 R72). -/
def readOp : Reg → Instr
  | .ctrl => .rdCtrl
  | .period => .rdPeriod
  | .tval => .rdTval
  | .count => .rdCount
  | .cooldown => .rdCooldown
  | .cfg => .rdCfg
  | .state => .rdState
  | .changed => .rdChanged
  | .event => .rdEvent
  | .dbcnt i => .rdDbcnt i

/-- The write operation of a register, or READONLY where it has none (30 R72, R77). -/
def writeOp (wdata : Word) : Reg → Decoded
  | .ctrl => .op (.wrCtrl wdata)
  | .period => .op (.wrPeriod wdata)
  | .count => .op (.wrCount wdata)
  | .cooldown => .op (.wrCooldown wdata)
  | .tval => .error .readonly
  | .cfg => .error .readonly
  | .state => .error .readonly
  | .changed => .error .readonly
  | .event => .error .readonly
  | .dbcnt _ => .error .readonly

/-- The decoder of 30 R77, for a block with `n` channels: SIZE, ALIGN, UNMAPPED, READONLY in this order.
The two checks that read the state (LOCKED, ZERO_PERIOD) "change whether a write is accepted, not how it
decodes" (30 R81): the meanings make them. Total on every descriptor and data word. -/
def decode (n : Nat) (td : TD) (wdata : Word) : Decoded :=
  if tdSize td ≠ wordSize then .error .size
  else if (tdOffset td).extractLsb' 0 2 ≠ 0b00#2 then .error .align
  else
    match regAt n (tdOffset td) with
    | none => .error .unmapped
    | some r => if tdWrite td then writeOp wdata r else .op (readOp r)

/-- The descriptor and the data word of a transaction, from the table of 30 R79; a read carries no data
(its word is ignored, 30 R70), written 0. -/
def encode : Instr → TD × Word
  | .rdCtrl => (0x400#11, 0#32)
  | .wrCtrl w => (0x500#11, w)
  | .rdPeriod => (0x404#11, 0#32)
  | .wrPeriod w => (0x504#11, w)
  | .rdTval => (0x408#11, 0#32)
  | .rdCount => (0x40C#11, 0#32)
  | .wrCount w => (0x50C#11, w)
  | .rdCooldown => (0x410#11, 0#32)
  | .wrCooldown w => (0x510#11, w)
  | .rdCfg => (0x414#11, 0#32)
  | .rdState => (0x418#11, 0#32)
  | .rdDbcnt i => (0x440#11 ||| (i.setWidth 11 <<< 2), 0#32)
  | .rdChanged => (0x41C#11, 0#32)
  | .rdEvent => (0x420#11, 0#32)

/-- The descriptor in the low bits of a table word. A TD has 11 bits (30 R70): a word with a bit above bit 10
is no descriptor. -/
def descriptorOfWord (w : Nat) : Option TD :=
  if w < 2048 then some (BitVec.ofNat 11 w) else none

/-- The transaction the decoder reads from a word of the opcode table: the descriptor is the word, the data
word is 0, and all 16 DBCNT slots are taken as present, which is what the table's mask 0x7C3 admits (log
entry 9). -/
def decodeTableWord (_nbits w : Nat) : Option Instr :=
  match descriptorOfWord w with
  | none => none
  | some td =>
    match decode 16 td 0#32 with
    | .op i => some i
    | .error _ => none

end Sys2Proof
end

