-- ==== Sys2Proof/Config.lean ====
section
/-! DEFINITION. The build-time parameters of a TDB (00_scope.md R9) and the values the spec leaves open. -/

namespace Sys2Proof

/-- The parameters of 00 R9: "Each one is fixed when the hardware is built and cannot change while it
runs." A state carries its own, so that a statement over all states is one over all parameters
(DESIGN CHOICE, log entry 3). -/
structure Params where
  /-- `N`, the number of inputs (channels). -/
  n : Nat
  /-- `POLARITY`: bit i is 1 when input i is active-low; bits at i >= N mean nothing. -/
  polarity : Half
  /-- `COOLDOWN_RESET`: the reset value of COOLDOWN, in ticks. -/
  cooldownReset : Half
  /-- `BASE`: the byte address of the register window in the host address space. -/
  base : Nat
  /-- `F_CLK`: the frequency of `clk` in Hz. -/
  fClk : Nat
  deriving DecidableEq, Repr

/-- The legal values of the parameters: 00 R9, and 92 D29 for the alignment of BASE. -/
def Params.legal (p : Params) : Bool :=
  decide (1 ≤ p.n) && decide (p.n ≤ 16) && decide (p.base % 256 = 0) && decide (0 < p.fClk)

/-- POLARITY is OPEN (92 D13): no value (log entry 4). -/
opaque Config.polarity : Half

/-- BASE is OPEN (92 D29) but 256-byte aligned: the number of the 256-byte page it starts (log entry 4). -/
opaque Config.basePage : Nat

/-- F_CLK is OPEN (92 D30) but positive: one less than its value (log entry 4). -/
opaque Config.fClkPred : Nat

/-- The raw input levels at the k-th edge for which no input is queued: "any value", a Boolean draw per
input (93, 40 R109; log entry 2). -/
opaque Config.rawDraw : Nat → Half

/-- The parameters of the block that `State.reset` describes: the reference board's N and COOLDOWN_RESET
(00 R9; DESIGN CHOICE, log entry 3), the OPEN ones free (log entry 4). -/
def Config.params : Params :=
  { n := 4
    polarity := Config.polarity
    cooldownReset := 100#16
    base := 256 * Config.basePage
    fClk := Config.fClkPred + 1 }

end Sys2Proof
end

