-- ==== Sys2Proof/Machine/State.lean ====
section
/-! DEFINITION. The state of a TDB (10_state.md R20), its build parameters, its per-cycle inputs and outputs
(10 R36), the faults a model records (60_exceptions.md R201) and the state after reset (10 R37). -/

namespace Sys2Proof.Machine

open Sys2Proof

/-- One entry of the channel file (10 R26 to R29). -/
structure Channel where
  /-- The cooldown countdown, the document's `debounce_ticks` (10 R27). -/
  dbt : Half
  /-- The debounced logical level, true = active (10 R28). -/
  stable : Bool
  /-- The sticky change flag (10 R29). -/
  changed : Bool
  deriving DecidableEq, Repr

/-- The rest value of a channel (00 R17, 10 R37). -/
def Channel.rest : Channel := { dbt := 0#16, stable := false, changed := false }

/-- What the host puts on the bus in one cycle (00 R15, 30 R70; 20 R62 for a fetch). -/
inductive Request where
  /-- No transaction (40 R112). -/
  | idle
  /-- A transaction: its descriptor and the data word, which a read ignores (30 R70). -/
  | txn (td : TD) (wdata : Word)
  /-- An instruction fetch of `size` at `off`, which the block cannot tell from a data read (20 R62). -/
  | fetch (size : BitVec 2) (off : Offset)
  deriving DecidableEq, Repr

/-- The inputs of one cycle (10 R36): the reset line, the bus request and the raw input levels. -/
structure Cycle where
  /-- The level of `rst_n`; false is reset asserted (70 R230). -/
  rstN : Bool
  req : Request
  /-- The raw input levels; bits at i >= N are no inputs. -/
  raw : Half
  deriving DecidableEq, Repr

/-- The bus response of one cycle (00 R14). -/
inductive Response where
  /-- No response was given: Idle or reset (40 R112, 70 R230). -/
  | none
  /-- OKAY(rdata). -/
  | okay (rdata : Word)
  /-- ERROR(cause). -/
  | error (cause : Cause)
  deriving DecidableEq, Repr

/-- The faults a model of the TDB RECORDS, in `State.faults`. The block goes on after each of them (60 R200,
R203), so no step of this machine stops with one: `Host.Outcome.fault` is never answered. -/
inductive Fault where
  /-- A transaction got the response ERROR(cause) (60 R200, R201): its cause, its descriptor and, for the
  causes for which R201 records it, its data word. Recorded by `busErrorEdge`. Safe: the step goes on as the
  spec says. -/
  | busError (cause : Cause) (td : TD) (wdata : Option Word)
  /-- The host fetched an instruction from the window, a fault of the host (20 R62, 92 D24). Recorded by
  `noteFetch`; the fetch is still performed as a read. Safe. -/
  | hostFetch (td : TD)
  deriving DecidableEq, Repr

/-- The reasons to refuse an instruction. -/
inductive Refusal where
  /-- The instruction has no meaning yet: raised by no arm of `exec`, since every row of the table has its
  meaning. Safe. -/
  | notModelled (mnemonic : String)
  deriving DecidableEq, Repr

/-- The state of one TDB: the tuple of 10 R20, the build parameters (00 R9), and the model's own fields for
the per-cycle inputs and outputs, which a step of one argument needs (log entries 1, 2, 5, 6). R20's own bit
count, 32*4 + 1 + 16 + 18*N, has one 32-bit field more than its tuple, whose 32-bit fields are three: PERIOD,
TVAL and COUNT. The model follows the tuple (DESIGN CHOICE, log entry 19). -/
structure State where
  /-- EN, CTRL bit 0 (10 R21). -/
  en : Bool
  /-- PERIOD (10 R22). -/
  period : Word
  /-- TVAL (10 R23). -/
  tval : Word
  /-- COUNT, the document's TimebaseCounter (10 R24). -/
  count : Word
  /-- COOLDOWN (10 R25). -/
  cooldown : Half
  /-- The channel file, N entries, channel 0 first (10 R26). -/
  ch : List Channel
  /-- The build parameters; no step changes them (00 R9). -/
  params : Params
  /-- Model's own: the inputs of the cycles to come, the next one first. -/
  inbox : List Cycle
  /-- Model's own: the raw input levels at the present edge (10 R36). -/
  raw : Half
  /-- Model's own: how many free raw levels have been drawn (log entry 2). -/
  draws : Nat
  /-- Model's own: the bus response at the last edge (10 R36). -/
  resp : Response
  /-- Model's own: `tick_o` in the cycle of the last edge (10 R36, 40 R102). -/
  tickO : Bool
  /-- Model's own: the faults recorded, oldest first (60 R200). -/
  faults : List Fault
  deriving DecidableEq, Repr

/-- Every state element at its reset value, for a block built with `p` (10 R37, 70 R231); the model's own
fields are empty or 0 (log entry 11). -/
def State.resetOf (p : Params) : State :=
  { en := false
    period := 0#32
    tval := 0#32
    count := 0#32
    cooldown := p.cooldownReset
    ch := List.replicate p.n Channel.rest
    params := p
    inbox := []
    raw := 0#16
    draws := 0
    resp := .none
    tickO := false
    faults := [] }

/-- The machine right after reset, for the parameters of `Config.params` (log entry 3). -/
def State.reset : State := State.resetOf Config.params

end Sys2Proof.Machine
end

