-- ==== Sys2Proof/Machine/Flags.lean ====
section
/-! DEFINITION. The status flags of 10_state.md R32 and the packed lane vectors of 10 R35. -/

namespace Sys2Proof.Machine

open Sys2Proof

/-- Channel i; a lane that does not exist reads as a channel at rest (42 R156: such lanes "read 0"). -/
def State.chan (s : State) (i : Nat) : Channel := s.ch.getD i Channel.rest

/-- A vector with bit i = `f` of channel i for i < n, and 0 at every bit from n on (10 R35, 30 R76). -/
def laneVec (n : Nat) (f : Channel → Bool) (ch : List Channel) : Half :=
  (BitVec.ofBoolListLE ((ch.take n).map f)).setWidth 16

/-- STABLE: bit i is ch[i].stable (00 R13, 10 R28). -/
def stableVec (s : State) : Half := laneVec s.params.n Channel.stable s.ch

/-- CHANGED: bit i is ch[i].changed (00 R13, 10 R29). -/
def changedVec (s : State) : Half := laneVec s.params.n Channel.changed s.ch

/-- The implicit "in cooldown" flag, `dbt != 0` (10 R32). -/
def Channel.inCooldown (c : Channel) : Bool := c.dbt != 0#16

/-- A tick occurs at this edge: EN = 1 and TVAL = 0 before it (40 R101). It is also the output `tick_o`
of this cycle, "a pure function of s" (40 R102). -/
def tickDue (s : State) : Bool := s.en && s.tval == 0#32

end Sys2Proof.Machine
end

