-- ==== Sys2Proof/Machine/Operands.lean ====
section
/-! DEFINITION. The data word formats, reads (30_encoding.md R76) and writes (R75), the host's byte addresses
(00_scope.md R14) and the byte view of a word (20_memory.md R51). -/

namespace Sys2Proof.Machine

open Sys2Proof

/-! Read data: every reserved bit reads 0 (30 R76). -/

/-- CTRL reads bit 0 EN (30 R76). -/
def ctrlWord (s : State) : Word := 0#31 ++ BitVec.ofBool s.en

/-- PERIOD reads all 32 bits (30 R76). -/
def periodWord (s : State) : Word := s.period

/-- TVAL reads all 32 bits (30 R76). -/
def tvalWord (s : State) : Word := s.tval

/-- COUNT reads all 32 bits (30 R76). -/
def countWord (s : State) : Word := s.count

/-- COOLDOWN reads in bits [15:0] (30 R76). -/
def cooldownWord (s : State) : Word := 0#16 ++ s.cooldown

/-- The lanes below n: a 1 at each bit i < n. -/
def laneMask (n : Nat) : Half := BitVec.ofNat 16 (2 ^ n - 1)

/-- CFG = [zext_16(POLARITY), 11'h0, N[4:0]] (10 R35, 42 R153); POLARITY bits at i >= N read 0. -/
def cfgWord (p : Params) : Word :=
  (p.polarity &&& laneMask p.n) ++ (0#11 ++ BitVec.ofNat 5 p.n)

/-- STATE = zext_32(STABLE) (10 R35). -/
def stateWord (s : State) : Word := 0#16 ++ stableVec s

/-- CHANGED = zext_32(CHANGED vector) (10 R35). -/
def changedWord (s : State) : Word := 0#16 ++ changedVec s

/-- EVENT = [zext_16(CHANGED vector), zext_16(STABLE)] (10 R35). -/
def eventWord (s : State) : Word := changedVec s ++ stableVec s

/-- DBCNT[i] reads ch[i].dbt in bits [15:0] (30 R76). -/
def dbcntWord (s : State) (i : Nat) : Word := 0#16 ++ (s.chan i).dbt

/-! Write data: the ignored bits have no effect (30 R75). -/

/-- CTRL uses wdata[0], the request to set EN (30 R75). -/
def ctrlRequestsEnable (wdata : Word) : Bool := wdata.getLsbD 0

/-- COOLDOWN uses wdata[15:0] (30 R75). -/
def cooldownData (wdata : Word) : Half := wdata.extractLsb' 0 16

/-! The host's side of the bus. -/

/-- Byte k of a word, bits [8k+7:8k]: little-endian lanes (20 R51). -/
def byteLane (w : Word) (k : Fin 4) : BitVec 8 := w.extractLsb' (8 * k.val) 8

/-- SIZE of an access of n bytes (30 R71); an access of another length has no descriptor. -/
def sizeOf? (nbytes : Nat) : Option (BitVec 2) :=
  if nbytes = 1 then some 0b00#2
  else if nbytes = 2 then some 0b01#2
  else if nbytes = 4 then some 0b10#2
  else none

/-- The bus fabric selects the block for the 256 bytes from BASE (20 R50). -/
def inWindow (p : Params) (addr : Nat) : Bool := decide (p.base ≤ addr) && decide (addr < p.base + 256)

/-- OFFSET = (addr - BASE)[7:0] (30 R70, R73). -/
def offsetOfAddr (p : Params) (addr : Nat) : Offset := BitVec.ofNat 8 (addr - p.base)

/-- The request the block sees of an access of n bytes at a byte address (00 R14). An access outside the
window is not the block's: it sees no request (20 R50, R56). -/
def hostAccess (p : Params) (write : Bool) (addr nbytes : Nat) (wdata : Word) : Request :=
  match sizeOf? nbytes with
  | none => .idle
  | some size => if inWindow p addr then .txn (packTD size write (offsetOfAddr p addr)) wdata else .idle

/-- `MemRead(addr, n)` (00 R14). -/
def hostRead (p : Params) (addr nbytes : Nat) : Request := hostAccess p false addr nbytes 0#32

/-- `MemWrite(addr, n, v)` (00 R14). -/
def hostWrite (p : Params) (addr nbytes : Nat) (v : Word) : Request := hostAccess p true addr nbytes v

end Sys2Proof.Machine
end

