-- ==== Sys2Proof/Machine/Ops.lean ====
section
/-! DEFINITION. The operations every transaction is made of: the prescaler and the tick update, the merge of
one clock edge (40_cycle_and_tick.md), the error response (60_exceptions.md), reset (70_reset_and_hazards.md)
and the taking of one cycle's inputs. -/

namespace Sys2Proof.Machine

open Sys2Proof

/-! ## Timebase -/

/-- `sat_dec(v)`: the saturating decrement (00 R12, 40 R105). -/
def satDec (v : Word) : Word := if v = 0#32 then 0#32 else v - 1#32

/-- The prescaler's next value (40 R103). -/
def prescale (s : State) : Word :=
  if s.en = false then s.tval
  else if s.tval = 0#32 then s.period - 1#32
  else s.tval - 1#32

/-! ## The tick update -/

/-- The logical level of input i: raw XOR POLARITY (40 R107, 42 R157). -/
def logicalLevel (s : State) (i : Nat) : Bool := s.raw.getLsbD i ^^ s.params.polarity.getLsbD i

/-- What the tick part of an edge gives for one lane: `ch_t[i]` and `set[i]` of 40 R104. -/
structure LaneTick where
  dbt : Half
  stable : Bool
  set : Bool
  deriving DecidableEq, Repr

/-- A lane at an edge with no tick: its fields are kept and nothing is set (40 R100). -/
def holdLane (c : Channel) : LaneTick := { dbt := c.dbt, stable := c.stable, set := false }

/-- A lane at a tick (40 R104): in cooldown it counts down and does not sample (R106); else it samples,
and either accepts the level (R107) or stays (R108). -/
def tickLane (s : State) (i : Nat) (c : Channel) : LaneTick :=
  if c.inCooldown then { dbt := c.dbt - 1#16, stable := c.stable, set := false }
  else if logicalLevel s i != c.stable then { dbt := s.cooldown, stable := logicalLevel s i, set := true }
  else holdLane c

/-- The tick's results: `cnt_t`, `ch_t` and `set` of 40 R100. -/
structure TickResult where
  count : Word
  lanes : List LaneTick
  deriving DecidableEq, Repr

/-- `tick_update`: the countdown and every lane, from the pre-edge state (40 R104, R105, R110, R120). -/
def tickUpdate (s : State) : TickResult := { count := satDec s.count, lanes := s.ch.mapIdx (tickLane s) }

/-- The results at an edge with no tick (40 R100). -/
def noTick (s : State) : TickResult := { count := s.count, lanes := s.ch.map holdLane }

/-- The tick part of the clock step (40 R100, R101). -/
def tickPart (s : State) : TickResult := if tickDue s then tickUpdate s else noTick s

/-! ## Transactions and the merge -/

/-- The effect `eff` of a transaction (40 R100); bit i of `clr` is 1 when changed[i] is to be cleared. -/
structure Effect where
  setEN : Bool
  wrPERIOD : Bool
  wrCOUNT : Bool
  wrCOOLDOWN : Bool
  clr : Half
  deriving DecidableEq, Repr

/-- No effect: all false, clr = 0 (40 R100). -/
def noEffect : Effect :=
  { setEN := false, wrPERIOD := false, wrCOUNT := false, wrCOOLDOWN := false, clr := 0#16 }

/-- What `perform` gives (40 R100): a response OKAY(rdata) with an effect, or `raise BusError(cause)`
(00 R14). -/
inductive Performed where
  | done (rdata : Word) (eff : Effect)
  | raise (cause : Cause)
  deriving DecidableEq, Repr

/-- One lane of the merge: a tick's set wins over a clear (40 R111). -/
def mergeLane (clr : Half) (i : Nat) (c : Channel) (t : LaneTick) : Channel :=
  { dbt := t.dbt, stable := t.stable, changed := (c.changed && !clr.getLsbD i) || t.set }

/-- `merge` (40 R111): the post-edge state from the pre-edge state, the prescaler's next value, the tick's
results, the transaction's effect and its data word. -/
def merge (s : State) (tvn : Word) (t : TickResult) (eff : Effect) (wdata : Word) : State :=
  { s with
    en := if eff.setEN then true else s.en
    tval := if eff.setEN then s.period - 1#32 else tvn
    period := if eff.wrPERIOD then wdata else s.period
    cooldown := if eff.wrCOOLDOWN then cooldownData wdata else s.cooldown
    count := if eff.wrCOUNT then wdata else t.count
    ch := (s.ch.zip t.lanes).mapIdx fun i p => mergeLane eff.clr i p.1 p.2 }

/-- The clock step (40 R100) for one response and effect. -/
def clockEdge (s : State) (resp : Response) (eff : Effect) (wdata : Word) : State :=
  { merge s (prescale s) (tickPart s) eff wdata with resp := resp, tickO := tickDue s }

/-- An Idle cycle: the prescaler and, if one is due, the tick; no response (40 R112). -/
def idleEdge (s : State) : State := clockEdge s .none noEffect 0#32

/-! ## Errors -/

/-- The data word is part of the record for READONLY, LOCKED and ZERO_PERIOD (60 R201). -/
def Cause.recordsData : Cause → Bool
  | .size => false
  | .align => false
  | .unmapped => false
  | .readonly => true
  | .locked => true
  | .zeroPeriod => true

/-- The fault record of an ERROR response (60 R200, R201). -/
def errorFault (cause : Cause) (td : TD) (wdata : Word) : Fault :=
  .busError cause td (if Cause.recordsData cause then some wdata else none)

/-- Taking an error (60 R200): the response is ERROR(cause), no effect on any state, the clock step still
advances the prescaler and applies a tick; the model records the fault. There is no trap entry and no
return (60 R208, R209). -/
def busErrorEdge (cause : Cause) (td : TD) (wdata : Word) (s : State) : State :=
  { clockEdge s (.error cause) noEffect wdata with faults := s.faults ++ [errorFault cause td wdata] }

/-- The edge of a transaction, from what its `perform` gives (40 R100). -/
def finish (i : Instr) (p : Performed) (s : State) : Host.Outcome State Fault Refusal :=
  match p with
  | .done rdata eff => .next (clockEdge s (.okay rdata) eff (encode i).2)
  | .raise cause => .next (busErrorEdge cause (encode i).1 (encode i).2 s)

/-- The error port `err` of a response (10 R36, 60 R200). -/
def Response.err : Response → Bool
  | .none => false
  | .okay _ => false
  | .error _ => true

/-- The read data port of a response: 0 with an error (60 R200), no value without a response. The 0 of an
error "is not a value the program may use" (93). -/
def Response.rdata : Response → Option Word
  | .none => Option.none
  | .okay w => Option.some w
  | .error _ => Option.some 0#32

/-- The cause code of a response, 0 for OKAY (60 R201). -/
def Response.code : Response → BitVec 3
  | .none => 0#3
  | .okay _ => 0#3
  | .error c => c.code

/-! ## Reset -/

/-- The Reset step (70 R230, R231): every state element at its reset value, no tick, no response. The build
parameters, the inputs to come and the model's own records stay. -/
def resetEdge (s : State) : State :=
  { State.resetOf s.params with
    inbox := s.inbox, raw := s.raw, draws := s.draws, faults := s.faults }

/-! ## The inputs of one cycle -/

/-- The inputs at this edge: the next queued cycle; with none queued the bus is Idle, `rst_n` is 1 and the
raw levels are a free draw (log entries 1, 2). -/
def nextCycle (s : State) : Cycle :=
  match s.inbox with
  | [] => { rstN := true, req := .idle, raw := Config.rawDraw s.draws }
  | c :: _ => c

/-- The state with this cycle's inputs taken: its raw levels at the pins, the queue moved on. -/
def beginCycle (s : State) : State :=
  match s.inbox with
  | [] => { s with raw := Config.rawDraw s.draws, draws := s.draws + 1 }
  | c :: rest => { s with raw := c.raw, inbox := rest }

/-- The descriptor and data a request presents to the block; a fetch "is performed as a read of the same
descriptor" (20 R62). -/
def Request.present : Request → Option (TD × Word)
  | .idle => none
  | .txn td wdata => some (td, wdata)
  | .fetch size off => some (packTD size false off, 0#32)

/-- What the block does with a request (30 R77, 40 R100). -/
inductive Presented where
  | idle
  | op (i : Instr)
  | error (cause : Cause) (td : TD) (wdata : Word)
  deriving DecidableEq, Repr

/-- A request decoded, for a block with n channels (30 R77). -/
def decodeRequest (n : Nat) (req : Request) : Presented :=
  match req.present with
  | none => .idle
  | some (td, wdata) =>
    match decode n td wdata with
    | .op i => .op i
    | .error cause => .error cause td wdata

/-- A fetch from the window is recorded as a fault of the host (20 R62, 92 D24; log entry 7). -/
def noteFetch (req : Request) (s : State) : State :=
  match req with
  | .idle => s
  | .txn _ _ => s
  | .fetch size off => { s with faults := s.faults ++ [.hostFetch (packTD size false off)] }

/-- The raw levels kept, one more cycle before the queued ones, with the transaction of a descriptor and
data word 0 (the fetch of log entry 8); no descriptor is an Idle cycle. -/
def queueDescriptor (s : State) (td : Option TD) : State :=
  { s with
    inbox :=
      { rstN := true
        req := match td with
          | none => .idle
          | some t => .txn t 0#32
        raw := s.raw } :: s.inbox }

end Sys2Proof.Machine
end

