-- ==== Sys2Proof/Machine/ChangeChannel.lean ====
section
/-! DEFINITION. The change-notification registers CHANGED and EVENT (43_change_channel.md). For each operation
its `perform` (40 R100) and its meaning, the whole edge. -/

namespace Sys2Proof.Machine

open Sys2Proof

/-- RD_CHANGED (43 R171): the flags, with no side effect. -/
def performRdChanged (s : State) : Performed := .done (changedWord s) noEffect

/-- RD_EVENT (43 R172): the flags and the stable states from one state; clears exactly the flags it
returned as 1. -/
def performRdEvent (s : State) : Performed := .done (eventWord s) { noEffect with clr := changedVec s }

/-- The edge of an RD_CHANGED (43 R171). -/
def execRdChanged (s : State) : Host.Outcome State Fault Refusal := finish .rdChanged (performRdChanged s) s

/-- The edge of an RD_EVENT (43 R172). -/
def execRdEvent (s : State) : Host.Outcome State Fault Refusal := finish .rdEvent (performRdEvent s) s

end Sys2Proof.Machine
end

