-- ==== Sys2Proof/Machine/Debounce.lean ====
section
/-! DEFINITION. The debounce registers COOLDOWN, CFG, STATE and DBCNT (42_debounce.md). For each operation its
`perform` (40 R100) and its meaning, the whole edge. -/

namespace Sys2Proof.Machine

open Sys2Proof

/-- RD_COOLDOWN (42 R151). -/
def performRdCooldown (s : State) : Performed := .done (cooldownWord s) noEffect

/-- WR_COOLDOWN (42 R152): LOCKED while EN = 1. -/
def performWrCooldown (s : State) : Performed :=
  if s.en = true then .raise .locked else .done 0#32 { noEffect with wrCOOLDOWN := true }

/-- RD_CFG (42 R153). -/
def performRdCfg (s : State) : Performed := .done (cfgWord s.params) noEffect

/-- RD_STATE (42 R154). -/
def performRdState (s : State) : Performed := .done (stateWord s) noEffect

/-- RD_DBCNT (42 R155): UNMAPPED when i >= N. The decoder never gives such an index; the meaning answers it
too, since it is total (log entry 15). -/
def performRdDbcnt (i : BitVec 4) (s : State) : Performed :=
  if i.toNat < s.params.n then .done (dbcntWord s i.toNat) noEffect else .raise .unmapped

/-- The edge of an RD_COOLDOWN (42 R151). -/
def execRdCooldown (s : State) : Host.Outcome State Fault Refusal := finish .rdCooldown (performRdCooldown s) s

/-- The edge of a WR_COOLDOWN (42 R152). -/
def execWrCooldown (wdata : Word) (s : State) : Host.Outcome State Fault Refusal :=
  finish (.wrCooldown wdata) (performWrCooldown s) s

/-- The edge of an RD_CFG (42 R153). -/
def execRdCfg (s : State) : Host.Outcome State Fault Refusal := finish .rdCfg (performRdCfg s) s

/-- The edge of an RD_STATE (42 R154). -/
def execRdState (s : State) : Host.Outcome State Fault Refusal := finish .rdState (performRdState s) s

/-- The edge of an RD_DBCNT (42 R155). -/
def execRdDbcnt (i : BitVec 4) (s : State) : Host.Outcome State Fault Refusal :=
  finish (.rdDbcnt i) (performRdDbcnt i s) s

end Sys2Proof.Machine
end

