-- ==== Sys2Proof/Machine/Timebase.lean ====
section
/-! DEFINITION. The timebase registers CTRL, PERIOD, TVAL and COUNT (41_timebase.md). For each operation its
`perform` (40 R100) and its meaning, the whole edge. -/

namespace Sys2Proof.Machine

open Sys2Proof

/-- RD_CTRL (41 R131). -/
def performRdCtrl (s : State) : Performed := .done (ctrlWord s) noEffect

/-- WR_CTRL (41 R132): sets EN, or nothing, or ZERO_PERIOD. -/
def performWrCtrl (wdata : Word) (s : State) : Performed :=
  if ctrlRequestsEnable wdata = true ∧ s.en = false then
    if s.period = 0#32 then .raise .zeroPeriod
    else .done 0#32 { noEffect with setEN := true }
  else .done 0#32 noEffect

/-- RD_PERIOD (41 R133). -/
def performRdPeriod (s : State) : Performed := .done (periodWord s) noEffect

/-- WR_PERIOD (41 R134): LOCKED while EN = 1. -/
def performWrPeriod (s : State) : Performed :=
  if s.en = true then .raise .locked else .done 0#32 { noEffect with wrPERIOD := true }

/-- RD_TVAL (41 R135). -/
def performRdTval (s : State) : Performed := .done (tvalWord s) noEffect

/-- RD_COUNT (41 R136). -/
def performRdCount (s : State) : Performed := .done (countWord s) noEffect

/-- WR_COUNT (41 R137). -/
def performWrCount : Performed := .done 0#32 { noEffect with wrCOUNT := true }

/-- The edge of an RD_CTRL (41 R131). -/
def execRdCtrl (s : State) : Host.Outcome State Fault Refusal := finish .rdCtrl (performRdCtrl s) s

/-- The edge of a WR_CTRL (41 R132). -/
def execWrCtrl (wdata : Word) (s : State) : Host.Outcome State Fault Refusal :=
  finish (.wrCtrl wdata) (performWrCtrl wdata s) s

/-- The edge of an RD_PERIOD (41 R133). -/
def execRdPeriod (s : State) : Host.Outcome State Fault Refusal := finish .rdPeriod (performRdPeriod s) s

/-- The edge of a WR_PERIOD (41 R134). -/
def execWrPeriod (wdata : Word) (s : State) : Host.Outcome State Fault Refusal :=
  finish (.wrPeriod wdata) (performWrPeriod s) s

/-- The edge of an RD_TVAL (41 R135). -/
def execRdTval (s : State) : Host.Outcome State Fault Refusal := finish .rdTval (performRdTval s) s

/-- The edge of an RD_COUNT (41 R136). -/
def execRdCount (s : State) : Host.Outcome State Fault Refusal := finish .rdCount (performRdCount s) s

/-- The edge of a WR_COUNT (41 R137). -/
def execWrCount (wdata : Word) (s : State) : Host.Outcome State Fault Refusal :=
  finish (.wrCount wdata) performWrCount s

end Sys2Proof.Machine
end

