-- ==== Sys2Proof/Machine/Dispatch.lean ====
section
/-! DEFINITION. The meaning of every transaction: one clock edge that performs it. -/

namespace Sys2Proof.Machine

open Sys2Proof

def exec (i : Instr) (s : State) : Host.Outcome State Fault Refusal :=
  match i with
  -- 41_timebase.md
  | .rdCtrl => Sys2Proof.Machine.execRdCtrl s
  | .wrCtrl wdata => Sys2Proof.Machine.execWrCtrl wdata s
  | .rdPeriod => Sys2Proof.Machine.execRdPeriod s
  | .wrPeriod wdata => Sys2Proof.Machine.execWrPeriod wdata s
  | .rdTval => Sys2Proof.Machine.execRdTval s
  | .rdCount => Sys2Proof.Machine.execRdCount s
  | .wrCount wdata => Sys2Proof.Machine.execWrCount wdata s
  -- 42_debounce.md
  | .rdCooldown => Sys2Proof.Machine.execRdCooldown s
  | .wrCooldown wdata => Sys2Proof.Machine.execWrCooldown wdata s
  | .rdCfg => Sys2Proof.Machine.execRdCfg s
  | .rdState => Sys2Proof.Machine.execRdState s
  | .rdDbcnt j => Sys2Proof.Machine.execRdDbcnt j s
  -- 43_change_channel.md
  | .rdChanged => Sys2Proof.Machine.execRdChanged s
  | .rdEvent => Sys2Proof.Machine.execRdEvent s

end Sys2Proof.Machine
end

