-- ==== Sys2Proof/Machine/Step.lean ====
section
/-! DEFINITION. One rising edge of `clk` (40_cycle_and_tick.md R100), or one Reset step (70 R230). -/

namespace Sys2Proof.Machine

open Sys2Proof

/-- One step: the inputs of one cycle are taken; with `rst_n` low it is a Reset step, which overrides every
other event (70 R230); else the request is decoded and the edge performed (40 R100). -/
def step (s : State) : Host.Outcome State Fault Refusal :=
  if (nextCycle s).rstN = false then .next (resetEdge (beginCycle s))
  else
    match decodeRequest s.params.n (nextCycle s).req with
    | .idle => .next (idleEdge (beginCycle s))
    | .op i => exec i (noteFetch (nextCycle s).req (beginCycle s))
    | .error cause td wdata => .next (busErrorEdge cause td wdata (noteFetch (nextCycle s).req (beginCycle s)))

/-- The transaction of a table word presented at the next edge, with data word 0 and the raw levels as they
stand (log entry 8). -/
def State.withFetchWord (s : State) (_nbits w : Nat) : State := queueDescriptor s (descriptorOfWord w)

end Sys2Proof.Machine
end

