-- ==== Sys2Proof/Machine/Script.lean ====
section
/-! DEFINITION. The host script lines of 30_encoding.md R82 and the pseudo-operations of R83, as the cycles they
put on the block's inputs. -/

namespace Sys2Proof.Machine

open Sys2Proof

/-- A line of a host script (30 R82) or a pseudo-operation (30 R83). -/
inductive Line where
  /-- `RD <reg>`. -/
  | rd (r : Reg)
  /-- `WR <reg>, <value>`. -/
  | wr (r : Reg) (value : Word)
  /-- `RAW <b>`: the raw levels from this cycle on; takes no cycle. -/
  | raw (levels : Half)
  /-- `IDLE <k>`: k cycles with no request. -/
  | idle (k : Nat)
  /-- `TXN <td>, <wdata>`: a raw descriptor. -/
  | txn (td : TD) (wdata : Word)
  /-- `RESET`: `rst_n` asserted for one cycle. -/
  | reset
  /-- `CONFIGURE p` (41 R139). -/
  | configure (p : Word)
  /-- `DELAY d`: the write and as many polls as the host made, the last of which returned 0 (41 R141; log
  entry 18). -/
  | delay (d : Word) (polls : Nat)
  /-- `ACK` (43 R178). -/
  | ack
  deriving DecidableEq, Repr

/-- The transaction of a read of a register (30 R82). -/
def readRequest (r : Reg) : Request := .txn (packTD wordSize false (offsetOf r)) 0#32

/-- The transaction of a write to a register (30 R82). -/
def writeRequest (r : Reg) (value : Word) : Request := .txn (packTD wordSize true (offsetOf r)) value

/-- The requests of a line that takes cycles (30 R82, R83). -/
def lineRequests : Line → List Request
  | .rd r => [readRequest r]
  | .wr r v => [writeRequest r v]
  | .raw _ => []
  | .idle k => List.replicate k .idle
  | .txn td wdata => [.txn td wdata]
  | .reset => []
  | .configure p => [writeRequest .period p, writeRequest .ctrl 1#32]
  | .delay d polls => writeRequest .count d :: List.replicate polls (readRequest .count)
  | .ack => [readRequest .event]

/-- The raw levels after a line (30 R82). -/
def lineRaw (raw : Half) : Line → Half
  | .rd _ => raw
  | .wr _ _ => raw
  | .raw levels => levels
  | .idle _ => raw
  | .txn _ _ => raw
  | .reset => raw
  | .configure _ => raw
  | .delay _ _ => raw
  | .ack => raw

/-- The cycles of a line, with the raw levels that hold (30 R82). -/
def lineCycles (raw : Half) (l : Line) : List Cycle :=
  if l = .reset then [{ rstN := false, req := .idle, raw := raw }]
  else (lineRequests l).map fun r => { rstN := true, req := r, raw := raw }

/-- The cycles of a script, from the raw levels before it (30 R82). -/
def scriptCycles : Half → List Line → List Cycle
  | _, [] => []
  | raw, l :: ls => lineCycles raw l ++ scriptCycles (lineRaw raw l) ls

end Sys2Proof.Machine
end

