-- ==== Sys2Proof/Machine/TickModel.lean ====
section
/-! DEFINITION. The tick-level abstraction of 40_cycle_and_tick.md R116: the clock step replaced by two kinds of
atomic events, a tick alone and a transaction with no tick. It loses the prescaler. Support of the claims: no step
of the machine runs it. -/

namespace Sys2Proof.Machine

open Sys2Proof

/-- `perform` of 40 R100: what each operation's rule gives. -/
def performInstr (i : Instr) (s : State) : Performed :=
  match i with
  | .rdCtrl => performRdCtrl s
  | .wrCtrl wdata => performWrCtrl wdata s
  | .rdPeriod => performRdPeriod s
  | .wrPeriod _ => performWrPeriod s
  | .rdTval => performRdTval s
  | .rdCount => performRdCount s
  | .wrCount _ => performWrCount
  | .rdCooldown => performRdCooldown s
  | .wrCooldown _ => performWrCooldown s
  | .rdCfg => performRdCfg s
  | .rdState => performRdState s
  | .rdDbcnt j => performRdDbcnt j s
  | .rdChanged => performRdChanged s
  | .rdEvent => performRdEvent s

/-- The effect of what `perform` gives; an error has none (40 R100). -/
def Performed.effect : Performed → Effect
  | .done _ eff => eff
  | .raise _ => noEffect

/-- The response of what `perform` gives (40 R100, 60 R200). -/
def Performed.response : Performed → Response
  | .done rdata _ => .okay rdata
  | .raise cause => .error cause

/-- `perform(decode(td, wdata, s), s)` of 40 R100, for any descriptor: one that decode rejects is an error too
(60 R200). -/
def performTxn (td : TD) (wdata : Word) (s : State) : Performed :=
  match decode s.params.n td wdata with
  | .op i => performInstr i s
  | .error cause => .raise cause

/-- A state of the abstraction: all that is state (10 R20) but the prescaler's phase TVAL, which it loses
(40 R116), with the build parameters (00 R9). -/
structure TickView where
  params : Params
  en : Bool
  period : Word
  count : Word
  cooldown : Half
  ch : List Channel
  deriving DecidableEq, Repr

/-- The abstraction's view of a state. -/
def tickView (s : State) : TickView :=
  { params := s.params, en := s.en, period := s.period, count := s.count, cooldown := s.cooldown, ch := s.ch }

/-- A state with this view, this prescaler phase and these raw levels. -/
def TickView.toState (a : TickView) (phase : Word) (raw : Half) : State :=
  { State.resetOf a.params with
    en := a.en, period := a.period, count := a.count, cooldown := a.cooldown, ch := a.ch, tval := phase, raw := raw }

/-- Tick(raw): "rule R104 applied alone" (40 R116). Neither the prescaler nor a transaction takes part. -/
def tickEvent (raw : Half) (a : TickView) : TickView :=
  let s := a.toState 0#32 raw
  tickView (merge s s.tval (tickUpdate s) noEffect 0#32)

/-- Txn(td, wdata): "a transaction with no tick" (40 R116), accepted or rejected, with its response, taken from
the state before it. The abstraction has no prescaler, so what an RD_TVAL answers in it is any value, `phase`
(DEDUCED, log entry 20); nothing else reads it. -/
def txnEvent (phase : Word) (td : TD) (wdata : Word) (a : TickView) : TickView × Response :=
  let s := a.toState phase 0#16
  let p := performTxn td wdata s
  (tickView (merge s s.tval (noTick s) p.effect wdata), p.response)

/-- The two kinds of atomic events of 40 R116. -/
inductive TickEvent where
  | tick (raw : Half)
  | txn (phase : Word) (td : TD) (wdata : Word)
  deriving DecidableEq, Repr

/-- A run of the abstraction, the first event first: its last state and its transactions' responses, in order. -/
def runEvents : List TickEvent → TickView → TickView × List Response
  | [], a => (a, [])
  | .tick raw :: es, a => runEvents es (tickEvent raw a)
  | .txn phase td wdata :: es, a =>
    let first := txnEvent phase td wdata a
    let rest := runEvents es first.1
    (rest.1, first.2 :: rest.2)

/-- Each tick of a run comes while EN = 1: the part of the tick condition (40 R101) that the abstraction still
has, and what the fairness premise of R116 is about (DEDUCED, log entry 20). -/
def TicksArmed : List TickEvent → TickView → Prop
  | [], _ => True
  | .tick raw :: es, a => a.en = true ∧ TicksArmed es (tickEvent raw a)
  | .txn phase td wdata :: es, a => TicksArmed es (txnEvent phase td wdata a).1

/-- The tick event of the next edge, if a tick is due. -/
def dueTick (s : State) : List TickEvent := if tickDue s then [.tick (nextCycle s).raw] else []

/-- The events the next clock step equals: "Txn then Tick" for a read, "Tick then Txn" for a write (40 R116); an
Idle cycle is its tick, if one is due (40 R112). -/
def edgeEvents (s : State) : List TickEvent :=
  match (nextCycle s).req.present with
  | none => dueTick s
  | some (td, wdata) =>
    if tdWrite td then dueTick s ++ [.txn s.tval td wdata] else .txn s.tval td wdata :: dueTick s

end Sys2Proof.Machine
end

