-- ==== Sys2Proof/Safety.lean ====
section
/-! DEFINITION. The terms of the claims: the invariant of 10_state.md R30, runs of edges and the ticks in them,
what one edge does outside its transaction (40_cycle_and_tick.md), and when a run is successful. -/

namespace Sys2Proof.Machine

open Sys2Proof

/-! ## The invariant -/

/-- What every reachable state satisfies (10 R30 items 1 to 3), with the shape of the channel file (10 R26)
and the legal parameters (00 R9). -/
structure Inv (s : State) : Prop where
  legal : s.params.legal = true
  lanes : s.ch.length = s.params.n
  /-- 10 R30.1. -/
  running : s.en = true → s.period ≠ 0#32 ∧ s.tval.toNat ≤ s.period.toNat - 1
  /-- 10 R30.2. -/
  stopped : s.en = false → s.tval = 0#32 ∧ ∀ c ∈ s.ch, c = Channel.rest
  /-- 10 R30.3. -/
  cooldown : ∀ c ∈ s.ch, c.dbt.toNat ≤ s.cooldown.toNat

/-! ## One edge -/

/-- The tick condition as the rule words it (40 R101). -/
def TickAt (s : State) : Prop := s.en = true ∧ s.tval = 0#32

/-- What an edge leaves of the fields no transaction writes, and the tick output: the parameters, the
inputs to come and the number of channels stay (00 R9, 10 R26); `tick_o` is the tick condition (40 R102). -/
structure EdgeKeeps (s t : State) : Prop where
  params : t.params = s.params
  inbox : t.inbox = s.inbox
  raw : t.raw = s.raw
  draws : t.draws = s.draws
  lanes : t.ch.length = s.ch.length
  tickO : t.tickO = true ↔ TickAt s

/-- TVAL after an edge that does not set EN (40 R103). -/
structure PrescalerRuns (s t : State) : Prop where
  holds : s.en = false → t.tval = s.tval
  reloads : s.en = true → s.tval = 0#32 → t.tval = s.period - 1#32
  counts : s.en = true → s.tval ≠ 0#32 → t.tval = s.tval - 1#32

/-- COUNT after an edge that does not write it (40 R105). -/
structure CountdownRuns (s t : State) : Prop where
  holds : ¬ TickAt s → t.count = s.count
  ticks : TickAt s → t.count.toNat = s.count.toNat - 1

/-- dbt and stable of lane i after any edge but a reset (10 R38, 40 R106 to R108). -/
structure LaneRuns (s t : State) (i : Nat) : Prop where
  holds : ¬ TickAt s → (t.chan i).dbt = (s.chan i).dbt ∧ (t.chan i).stable = (s.chan i).stable
  cools : TickAt s → (s.chan i).dbt ≠ 0#16 →
    (t.chan i).dbt = (s.chan i).dbt - 1#16 ∧ (t.chan i).stable = (s.chan i).stable
  accepts : TickAt s → (s.chan i).dbt = 0#16 →
    (s.raw.getLsbD i ^^ s.params.polarity.getLsbD i) ≠ (s.chan i).stable →
    (t.chan i).dbt = s.cooldown ∧ (t.chan i).stable = (s.raw.getLsbD i ^^ s.params.polarity.getLsbD i)
  stays : TickAt s → (s.chan i).dbt = 0#16 →
    (s.raw.getLsbD i ^^ s.params.polarity.getLsbD i) = (s.chan i).stable →
    (t.chan i).dbt = 0#16 ∧ (t.chan i).stable = (s.chan i).stable

/-- Lane i accepts a transition at this edge (00 R17, 40 R107). -/
def Accepts (s : State) (i : Nat) : Prop :=
  TickAt s ∧ (s.chan i).dbt = 0#16 ∧
    (s.raw.getLsbD i ^^ s.params.polarity.getLsbD i) ≠ (s.chan i).stable

/-- What every edge but a reset does, whatever its transaction: the frame of all 14 operations. Each lane
below the number of channels runs; the rest is kept. -/
structure EdgeRuns (s t : State) : Prop where
  keeps : EdgeKeeps s t
  laneRuns : ∀ i, i < s.ch.length → LaneRuns s t i

/-- Every changed flag after an edge that clears none: set by an accepted transition, else kept (40 R111). -/
def FlagsKept (s t : State) : Prop :=
  ∀ i, i < s.ch.length → ((t.chan i).changed = true ↔ (s.chan i).changed = true ∨ Accepts s i)

/-- An edge whose transaction writes nothing (40 R112): only the prescaler and the tick act. -/
structure QuietEdge (s t : State) : Prop where
  edge : EdgeRuns s t
  flags : FlagsKept s t
  prescaler : PrescalerRuns s t
  countdown : CountdownRuns s t
  en : t.en = s.en
  period : t.period = s.period
  cooldown : t.cooldown = s.cooldown

/-- The transaction completes with this response, and its edge is that of an Idle cycle (40 R112). -/
def AnswersQuietly (i : Instr) (s : State) (r : Response) : Prop :=
  ∃ t, exec i s = .next t ∧ t.resp = r ∧ t.faults = s.faults ∧ QuietEdge s t

/-- The transaction is answered ERROR(cause) and the fault recorded; its edge is that of an Idle cycle
(60 R200). -/
def ErrorsQuietly (i : Instr) (s : State) (cause : Cause) (record : Fault) : Prop :=
  ∃ t, exec i s = .next t ∧ t.resp = .error cause ∧ t.faults = s.faults ++ [record] ∧ QuietEdge s t

/-- The offsets of the register map, as numbers (30 R74), for a block with n channels. -/
def MappedOffset (n off : Nat) : Prop :=
  off ∈ [0x00, 0x04, 0x08, 0x0C, 0x10, 0x14, 0x18, 0x1C, 0x20] ∨ ∃ i, i < 16 ∧ i < n ∧ off = 0x40 + 4 * i

/-! ## Runs -/

/-- The state after k steps, where all of them answer a next state. -/
def after : Nat → State → Option State
  | 0, s => some s
  | k + 1, s =>
    match step s with
    | .next t => after k t
    | .fault _ => none
    | .refused _ => none

/-- How many of the next k steps perform a tick: each is an edge whose cycle has `tick_o` = 1 (40 R102). -/
def ticksIn : Nat → State → Nat
  | 0, _ => 0
  | k + 1, s =>
    match step s with
    | .next t => (if t.tickO then 1 else 0) + ticksIn k t
    | .fault _ => 0
    | .refused _ => 0

/-- The responses a cycle gives: one, or none (40 R112). -/
def Response.given : Response → List Response
  | .none => []
  | .okay rdata => [.okay rdata]
  | .error cause => [.error cause]

/-- The responses the next k steps give, in order. -/
def responsesIn : Nat → State → List Response
  | 0, _ => []
  | k + 1, s =>
    match step s with
    | .next t => t.resp.given ++ responsesIn k t
    | .fault _ => []
    | .refused _ => []

/-- The events of the tick-level abstraction that the next k steps equal (40 R116). -/
def eventsIn : Nat → State → List TickEvent
  | 0, _ => []
  | k + 1, s =>
    match step s with
    | .next t => edgeEvents s ++ eventsIn k t
    | .fault _ => []
    | .refused _ => []

/-- The inputs of the next k steps hold reset released (70 R230). -/
def ResetReleased (k : Nat) (s : State) : Prop := ∀ c ∈ s.inbox.take k, c.rstN = true

/-- The operation a request performs, if any (30 R77). -/
def requestedOp (n : Nat) (req : Request) : Option Instr :=
  match decodeRequest n req with
  | .idle => none
  | .op i => some i
  | .error _ _ _ => none

/-- No WR_COUNT is among the next k requests. -/
def NoCountWrite (k : Nat) (s : State) : Prop :=
  ∀ c ∈ s.inbox.take k, ∀ w, requestedOp s.params.n c.req ≠ some (.wrCount w)

/-- No RD_EVENT is among the next k requests; a fetch of EVENT is one (20 R62). -/
def NoEventRead (k : Nat) (s : State) : Prop :=
  ∀ c ∈ s.inbox.take k, requestedOp s.params.n c.req ≠ some .rdEvent

/-! ## Successful runs -/

/-- No fault has been recorded: "the model records a fault and the run is never successful" (93). -/
def FaultFree (s : State) : Prop := s.faults = []

/-- A run of k steps that ends with no fault recorded (93). -/
def SuccessfulRun (k : Nat) (s : State) : Prop := ∃ t, after k s = some t ∧ FaultFree t

end Sys2Proof.Machine
end

