-- ==== Sys2Proof/Certificates/Slice0/Obligations.lean ====
section
/-! DEFINITION. The statements for the provers. Each docstring names the rules of spec/ it is about. -/

open Sys2Proof Sys2Proof.Machine

/-! ## Encoding -/

/-- Four descriptors of 30 R79 decode to the operation that rule gives them, and 0x520, which that rule does
not list (a write to EVENT), to none. It is about the table reader `decodeTableWord`, not the machine's
`decode`: that the reader takes data word 0 (so WR_PERIOD has data 0) and all 16 DBCNT slots as present (so
0x47C is an operation) is the model's choice (DEDUCED, log entry 9). -/
def Obligations.TableWordsDecodeToTheirOperation : Prop :=
  decodeTableWord 16 0x400 = some .rdCtrl ∧ decodeTableWord 16 0x504 = some (.wrPeriod 0#32) ∧
    decodeTableWord 16 0x47C = some (.rdDbcnt 15#4) ∧ decodeTableWord 16 0x420 = some .rdEvent ∧
    decodeTableWord 16 0x520 = none

/-- Decoding the encoding of any transaction a block with n channels has gives it back (30 R77, R79). -/
def Obligations.DecodeOfEncodeIsTheTransaction : Prop :=
  ∀ (n : Nat) (i : Instr), i.wellFormed n = true → decode n (encode i).1 (encode i).2 = .op i

/-- Each accepted descriptor is the encoding of what it decodes to, so no two descriptors mean the same
operation and no bit of one is dropped; a write's data word is kept whole (30 R77, R79). -/
def Obligations.AcceptedDescriptorIsTheEncoding : Prop :=
  ∀ (n : Nat) (td : TD) (wdata : Word) (i : Instr), decode n td wdata = .op i →
    i.wellFormed n = true ∧ (encode i).1 = td ∧ (i.isWrite = true → (encode i).2 = wdata) ∧
      i.isWrite = td.getLsbD 8

/-- The first four causes, each with its condition on the descriptor's bits; an earlier cause wins (30 R77,
60 R201, R202). -/
def Obligations.DecodeCausesInPriorityOrder : Prop :=
  ∀ (n : Nat) (td : TD) (wdata : Word),
    (decode n td wdata = .error .size ↔ td.toNat / 512 ≠ 2) ∧
    (decode n td wdata = .error .align ↔ td.toNat / 512 = 2 ∧ td.toNat % 4 ≠ 0) ∧
    (decode n td wdata = .error .unmapped ↔
      td.toNat / 512 = 2 ∧ td.toNat % 4 = 0 ∧ ¬ MappedOffset n (td.toNat % 256)) ∧
    (decode n td wdata = .error .readonly ↔
      td.toNat / 512 = 2 ∧ td.toNat % 4 = 0 ∧ MappedOffset n (td.toNat % 256) ∧
        td.toNat / 256 % 2 = 1 ∧ td.toNat % 256 ∉ [0x00, 0x04, 0x0C, 0x10]) ∧
    decode n td wdata ≠ .error .locked ∧ decode n td wdata ≠ .error .zeroPeriod

/-- A read or write addressed by register decodes to that register's operation, or READONLY where it has no
write; a DBCNT slot needs an index below N (30 R72, R74, R78). -/
def Obligations.RegisterAccessDecodesToItsOperation : Prop :=
  ∀ (n : Nat) (r : Reg) (wdata : Word), (∀ i, r = .dbcnt i → i.toNat < n) →
    decode n (packTD wordSize false (offsetOf r)) wdata = .op (readOp r) ∧
    decode n (packTD wordSize true (offsetOf r)) wdata = writeOp wdata r

/-- A host access of n bytes at BASE + off is the descriptor with that offset and the size's code; outside
the window the block sees none (00 R14, 20 R50, 30 R71, R73). The access outside the window as Idle is the
model's reading (log entry 17). -/
def Obligations.HostAccessPresentsItsDescriptor : Prop :=
  ∀ (p : Params) (write : Bool) (off : Nat) (wdata : Word), off < 256 →
    (∀ q ∈ [((0b00#2 : BitVec 2), 1), (0b01#2, 2), (0b10#2, 4)],
      ∃ td, hostAccess p write (p.base + off) q.2 wdata = .txn td wdata ∧
        tdSize td = q.1 ∧ tdWrite td = write ∧ (tdOffset td).toNat = off) ∧
    (∀ addr nbytes, (addr < p.base ∨ p.base + 256 ≤ addr) → hostAccess p write addr nbytes wdata = .idle)

/-- The four byte lanes of a word are its bits from low to high (20 R51). -/
def Obligations.ByteLanesAreLittleEndian : Prop :=
  ∀ w : Word, w = byteLane w 3 ++ (byteLane w 2 ++ (byteLane w 1 ++ byteLane w 0))

/-! ## One step -/

/-- When the descriptor at the bus decodes to i, the step is i's meaning, at the state with this cycle's raw
levels taken and the queue moved on (30 R77, 40 R100; the queue is log entry 1). -/
def Obligations.StepRunsTheDecodedTransaction : Prop :=
  ∀ (s : State) (c : Cycle) (rest : List Cycle) (td : TD) (wdata : Word) (i : Instr),
    s.inbox = c :: rest → c.rstN = true → c.req = .txn td wdata → decode s.params.n td wdata = .op i →
    step s = exec i { s with inbox := rest, raw := c.raw }

/-- A rejected transaction is answered ERROR with decode's cause, recorded with its descriptor (and its data
for READONLY), and its edge is that of an Idle cycle (60 R200, R201, R203). -/
def Obligations.RejectedTransactionActsAsIdle : Prop :=
  ∀ (s : State) (c : Cycle) (rest : List Cycle) (td : TD) (wdata : Word) (cause : Cause),
    s.inbox = c :: rest → c.rstN = true → c.req = .txn td wdata →
    decode s.params.n td wdata = .error cause →
    ∃ t u, step s = .next t ∧ step { s with inbox := { c with req := .idle } :: rest } = .next u ∧
      t = { u with
        resp := .error cause
        faults := s.faults ++ [.busError cause td (if cause = .readonly then some wdata else none)] } ∧
      t.resp.err = true ∧ t.resp.rdata = some 0#32 ∧
      QuietEdge { s with inbox := rest, raw := c.raw } t

/-- An Idle cycle: no response, and only the prescaler and, if one is due, the tick act (40 R112). -/
def Obligations.IdleCycleOnlyRunsTheClock : Prop :=
  ∀ (s : State) (c : Cycle) (rest : List Cycle),
    s.inbox = c :: rest → c.rstN = true → c.req = .idle →
    ∃ t, step s = .next t ∧ t.resp = .none ∧ t.faults = s.faults ∧
      QuietEdge { s with inbox := rest, raw := c.raw } t

/-- With no input queued the step is an Idle cycle whose raw levels are the next free draw, whatever that
is: the model's choice (log entries 1, 2). -/
def Obligations.EmptyQueueIsIdleWithFreeLevels : Prop :=
  ∀ s : State, s.inbox = [] →
    ∃ t, step s = .next t ∧ t.resp = .none ∧
      QuietEdge { s with raw := Config.rawDraw s.draws, draws := s.draws + 1 } t

/-- A fetch from the window is performed as a read of the same descriptor (20 R62); the model records it as
a fault of the host, first (log entry 7). -/
def Obligations.FetchIsPerformedAsARead : Prop :=
  ∀ (s : State) (c : Cycle) (rest : List Cycle) (size : BitVec 2) (off : Offset),
    s.inbox = c :: rest → c.req = .fetch size off → c.rstN = true →
    step s = step { s with
      inbox := { c with req := .txn (packTD size false off) 0#32 } :: rest
      faults := s.faults ++ [.hostFetch (packTD size false off)] }

/-- Nothing stops the block: every step answers a next state (60 R203; 40 R100, a total step). -/
def Obligations.EveryStepAnswersNext : Prop := ∀ s : State, ∃ t, step s = .next t

/-- Every edge that is no reset runs every lane as the channel state machine says and keeps the parameters,
the number of channels and the tick output's meaning (10 R38, 40 R102, R104, R106 to R108). -/
def Obligations.EveryEdgeRunsTheChannels : Prop :=
  ∀ s t : State, (nextCycle s).rstN = true → step s = .next t → EdgeRuns (beginCycle s) t

/-! ## Reset -/

/-- Reset puts every state element at the value of the table, whatever the state, the request and the raw
levels, with no tick output and no response (10 R37, 70 R231; of R230 the model's Reset step only). -/
def Obligations.ResetSetsEveryElement : Prop :=
  ∀ s : State, (nextCycle s).rstN = false →
    ∃ t, step s = .next t ∧ t.en = false ∧ t.period = 0#32 ∧ t.tval = 0#32 ∧ t.count = 0#32 ∧
      t.cooldown = s.params.cooldownReset ∧ t.params = s.params ∧
      t.ch = List.replicate s.params.n { dbt := 0#16, stable := false, changed := false } ∧
      t.tickO = false ∧ t.resp = .none

/-- The state after reset of a block with any parameters, and the reset state of this model with the
reference board's N = 4 and COOLDOWN_RESET = 100 (10 R37; the board is the model's choice, log entry 3). -/
def Obligations.ResetStateHoldsTheTable : Prop :=
  (∀ p : Params, (State.resetOf p).en = false ∧ (State.resetOf p).period = 0#32 ∧
    (State.resetOf p).tval = 0#32 ∧ (State.resetOf p).count = 0#32 ∧
    (State.resetOf p).cooldown = p.cooldownReset ∧ (State.resetOf p).params = p ∧
    (State.resetOf p).ch = List.replicate p.n { dbt := 0#16, stable := false, changed := false }) ∧
  State.reset = State.resetOf Config.params ∧ State.reset.params.n = 4 ∧
    State.reset.cooldown = 100#16

/-- The state after reset meets the invariant, for every legal choice of parameters and for this model's own
(10 R30; the parameters of the latter are log entries 3 and 4). -/
def Obligations.ResetStateMeetsTheInvariant : Prop :=
  (∀ p : Params, p.legal = true → Inv (State.resetOf p)) ∧ Inv State.reset

/-! ## The transactions: their result, their frame, their errors. Each also names its descriptor. -/

/-- RD_CTRL (41 R131), RD_PERIOD (R133), RD_TVAL (R135) and RD_COUNT (R136): each completes, answers its
register as it was before the edge, and changes nothing; a write of TVAL is READONLY. -/
def Obligations.TimebaseReadsAnswerTheirRegister : Prop :=
  ∀ s : State,
    AnswersQuietly .rdCtrl s (.okay (if s.en then 1#32 else 0#32)) ∧
    AnswersQuietly .rdPeriod s (.okay s.period) ∧
    AnswersQuietly .rdTval s (.okay s.tval) ∧
    AnswersQuietly .rdCount s (.okay s.count) ∧
    ∀ (n : Nat) (wdata : Word),
      decode n 0x400#11 wdata = .op .rdCtrl ∧ decode n 0x404#11 wdata = .op .rdPeriod ∧
      decode n 0x408#11 wdata = .op .rdTval ∧ decode n 0x40C#11 wdata = .op .rdCount ∧
      decode n 0x508#11 wdata = .error .readonly

/-- RD_COOLDOWN (42 R151): completes, answers COOLDOWN with bits [31:16] 0, and changes nothing. -/
def Obligations.RdCooldownAnswersCooldown : Prop :=
  ∀ s : State, ∃ w : Word, AnswersQuietly .rdCooldown s (.okay w) ∧ w.toNat = s.cooldown.toNat ∧
    ∀ (n : Nat) (wdata : Word), decode n 0x410#11 wdata = .op .rdCooldown

/-- RD_CFG (42 R153): completes, answers N in bits [4:0], POLARITY in bits [31:16] with bits at i >= N 0,
and 0 in bits [15:5], and changes nothing; a write is READONLY. -/
def Obligations.RdCfgAnswersTheParameters : Prop :=
  ∀ s : State, s.params.legal = true →
    ∃ w : Word, AnswersQuietly .rdCfg s (.okay w) ∧ w.toNat % 65536 = s.params.n ∧
      (∀ j, j < 16 → (w.getLsbD (16 + j) = true ↔ j < s.params.n ∧ s.params.polarity.getLsbD j = true)) ∧
      ∀ (n : Nat) (wdata : Word), decode n 0x414#11 wdata = .op .rdCfg ∧
        decode n 0x514#11 wdata = .error .readonly

/-- RD_STATE (42 R154) and RD_CHANGED (43 R171): each completes, answers the vector of its flag from the
state before the edge with every bit at i >= N 0, and changes nothing; a write of either is READONLY. -/
def Obligations.FlagVectorReadsAnswerEveryLane : Prop :=
  ∀ s : State, s.params.legal = true →
    (∃ w : Word, AnswersQuietly .rdState s (.okay w) ∧
      ∀ j, w.getLsbD j = true ↔ j < s.params.n ∧ (s.chan j).stable = true) ∧
    (∃ w : Word, AnswersQuietly .rdChanged s (.okay w) ∧
      ∀ j, w.getLsbD j = true ↔ j < s.params.n ∧ (s.chan j).changed = true) ∧
    ∀ (n : Nat) (wdata : Word),
      decode n 0x418#11 wdata = .op .rdState ∧ decode n 0x41C#11 wdata = .op .rdChanged ∧
      decode n 0x518#11 wdata = .error .readonly ∧ decode n 0x51C#11 wdata = .error .readonly

/-- RD_DBCNT (42 R155): for an index below N it completes, answers ch[i].dbt with bits [31:16] 0, and
changes nothing; from N on the descriptor is UNMAPPED, and so is the meaning (log entry 15). A write of
DBCNT is READONLY below N and UNMAPPED from N on. -/
def Obligations.RdDbcntAnswersTheCooldownCounter : Prop :=
  ∀ (s : State) (i : BitVec 4),
    (i.toNat < s.params.n → ∃ w : Word, AnswersQuietly (.rdDbcnt i) s (.okay w) ∧
      w.toNat = (s.chan i.toNat).dbt.toNat) ∧
    (s.params.n ≤ i.toNat →
      ErrorsQuietly (.rdDbcnt i) s .unmapped (.busError .unmapped (encode (.rdDbcnt i)).1 none)) ∧
    (encode (.rdDbcnt i)).1.toNat = 0x440 + 4 * i.toNat ∧
    ∀ (n : Nat) (wdata : Word),
      (decode n (encode (.rdDbcnt i)).1 wdata =
        if i.toNat < n then .op (.rdDbcnt i) else .error .unmapped) ∧
      (decode n (packTD wordSize true (offsetOf (.dbcnt i))) wdata =
        if i.toNat < n then .error .readonly else .error .unmapped)

/-- RD_EVENT (43 R172): completes, answers the changed flags above the stable states from the one state
before the edge, clears exactly the flags it returned as 1, and a tick's set at the same edge wins: after
it a flag is 1 exactly where the edge accepted a transition. Nothing else is written. A write is READONLY. -/
def Obligations.RdEventAnswersAndClears : Prop :=
  ∀ s : State, s.params.legal = true → s.ch.length = s.params.n →
    ∃ (t : State) (w : Word), exec .rdEvent s = .next t ∧ t.resp = .okay w ∧
      (∀ j, j < 16 → (w.getLsbD (16 + j) = true ↔ j < s.params.n ∧ (s.chan j).changed = true)) ∧
      (∀ j, j < 16 → (w.getLsbD j = true ↔ j < s.params.n ∧ (s.chan j).stable = true)) ∧
      (∀ j, j < s.params.n → ((t.chan j).changed = true ↔ Accepts s j)) ∧
      EdgeRuns s t ∧ PrescalerRuns s t ∧ CountdownRuns s t ∧
      t.en = s.en ∧ t.period = s.period ∧ t.cooldown = s.cooldown ∧ t.faults = s.faults ∧
      ∀ (n : Nat) (wdata : Word), decode n 0x420#11 wdata = .op .rdEvent ∧
        decode n 0x520#11 wdata = .error .readonly

/-- WR_CTRL (41 R132): with bit 0 set, EN = 0 and PERIOD not 0 it sets EN and loads TVAL with PERIOD - 1 at
an edge with no tick; with PERIOD = 0 it is ZERO_PERIOD; in every other case it does nothing. The other 31
data bits play no part. -/
def Obligations.WrCtrlSetsEnOnce : Prop :=
  ∀ (s : State) (wdata : Word),
    (wdata.getLsbD 0 = true → s.en = false → s.period ≠ 0#32 →
      ∃ t, exec (.wrCtrl wdata) s = .next t ∧ t.resp = .okay 0#32 ∧ t.en = true ∧
        t.tval = s.period - 1#32 ∧ t.period = s.period ∧ t.count = s.count ∧ t.cooldown = s.cooldown ∧
        t.faults = s.faults ∧ t.tickO = false ∧ EdgeRuns s t ∧ FlagsKept s t) ∧
    (wdata.getLsbD 0 = true → s.en = false → s.period = 0#32 →
      ErrorsQuietly (.wrCtrl wdata) s .zeroPeriod (.busError .zeroPeriod 0x500#11 (some wdata))) ∧
    (wdata.getLsbD 0 = false ∨ s.en = true → AnswersQuietly (.wrCtrl wdata) s (.okay 0#32)) ∧
    ∀ n : Nat, decode n 0x500#11 wdata = .op (.wrCtrl wdata)

/-- WR_PERIOD (41 R134): while EN = 0 every value is stored and nothing else is written; while EN = 1 it is
LOCKED. -/
def Obligations.WrPeriodStoresWhileStopped : Prop :=
  ∀ (s : State) (wdata : Word),
    (s.en = false → ∃ t, exec (.wrPeriod wdata) s = .next t ∧ t.resp = .okay 0#32 ∧ t.period = wdata ∧
      t.en = s.en ∧ t.cooldown = s.cooldown ∧ t.faults = s.faults ∧
      EdgeRuns s t ∧ FlagsKept s t ∧ PrescalerRuns s t ∧ CountdownRuns s t) ∧
    (s.en = true →
      ErrorsQuietly (.wrPeriod wdata) s .locked (.busError .locked 0x504#11 (some wdata))) ∧
    ∀ n : Nat, decode n 0x504#11 wdata = .op (.wrPeriod wdata)

/-- WR_COUNT (41 R137): COUNT is the data word whatever EN is, also at an edge that ticks, whose decrement
is dropped (40 R111 case 1); nothing else is written. -/
def Obligations.WrCountWinsOverTheTick : Prop :=
  ∀ (s : State) (wdata : Word),
    (∃ t, exec (.wrCount wdata) s = .next t ∧ t.resp = .okay 0#32 ∧ t.count = wdata ∧
      t.en = s.en ∧ t.period = s.period ∧ t.cooldown = s.cooldown ∧ t.faults = s.faults ∧
      EdgeRuns s t ∧ FlagsKept s t ∧ PrescalerRuns s t) ∧
    ∀ n : Nat, decode n 0x50C#11 wdata = .op (.wrCount wdata)

/-- WR_COOLDOWN (42 R152): while EN = 0 the low 16 data bits are stored and nothing else is written; while
EN = 1 it is LOCKED. -/
def Obligations.WrCooldownStoresWhileStopped : Prop :=
  ∀ (s : State) (wdata : Word),
    (s.en = false → ∃ t, exec (.wrCooldown wdata) s = .next t ∧ t.resp = .okay 0#32 ∧
      t.cooldown.toNat = wdata.toNat % 65536 ∧
      t.en = s.en ∧ t.period = s.period ∧ t.faults = s.faults ∧
      EdgeRuns s t ∧ FlagsKept s t ∧ PrescalerRuns s t ∧ CountdownRuns s t) ∧
    (s.en = true →
      ErrorsQuietly (.wrCooldown wdata) s .locked (.busError .locked 0x510#11 (some wdata))) ∧
    ∀ n : Nat, decode n 0x510#11 wdata = .op (.wrCooldown wdata)

/-! ## Rules about the whole machine -/

/-- Every step keeps the invariant (10 R30 items 1 to 3), resets, errors and fetches among them. -/
def Obligations.EveryStepKeepsTheInvariant : Prop :=
  ∀ s t : State, Inv s → step s = .next t → Inv t

/-- No run changes the build parameters (00 R9). -/
def Obligations.ParametersNeverChange : Prop :=
  ∀ (k : Nat) (s t : State), after k s = some t → t.params = s.params

/-- Who may write the registers, outside reset (10 R21, R33): EN goes only from 0 to 1, by a WR_CTRL of bit
0 = 1 while PERIOD is not 0; PERIOD and COOLDOWN change only by their writes while EN = 0; COUNT only by
WR_COUNT or a tick's decrement. -/
def Obligations.RegistersHaveOnlyTheirWriters : Prop :=
  ∀ s t : State, (nextCycle s).rstN = true → step s = .next t →
    (t.en = s.en ∨ s.en = false ∧ t.en = true ∧ s.period ≠ 0#32 ∧
      ∃ w : Word, w.getLsbD 0 = true ∧ requestedOp s.params.n (nextCycle s).req = some (.wrCtrl w)) ∧
    (t.period = s.period ∨ s.en = false ∧
      requestedOp s.params.n (nextCycle s).req = some (.wrPeriod t.period)) ∧
    (t.cooldown = s.cooldown ∨ s.en = false ∧
      ∃ w : Word, w.toNat % 65536 = t.cooldown.toNat ∧
        requestedOp s.params.n (nextCycle s).req = some (.wrCooldown w)) ∧
    (t.count = s.count ∨ TickAt s ∧ t.count.toNat = s.count.toNat - 1 ∨
      requestedOp s.params.n (nextCycle s).req = some (.wrCount t.count))

/-- Outside reset a changed flag is set only in the tick that flips its stable state, and cleared only by an
RD_EVENT (10 R29, R30 item 5; 43 R179). -/
def Obligations.FlagsAreSetByFlipsAndClearedByEvent : Prop :=
  ∀ (s t : State) (i : Nat), (nextCycle s).rstN = true → step s = .next t → i < s.ch.length →
    ((s.chan i).changed = false → (t.chan i).changed = true →
      TickAt s ∧ (t.chan i).stable ≠ (s.chan i).stable) ∧
    ((s.chan i).changed = true → (t.chan i).changed = false →
      requestedOp s.params.n (nextCycle s).req = some .rdEvent) ∧
    ((t.chan i).stable ≠ (s.chan i).stable → TickAt s ∧ (t.chan i).changed = true)

/-- Once EN is 1 it stays 1, and PERIOD and COOLDOWN stay as they are, until a reset (10 R21, R22, R25; 70
R239). -/
def Obligations.RunningBlockStaysArmedAndLocked : Prop :=
  ∀ (k : Nat) (s t : State), ResetReleased k s → s.en = true → after k s = some t →
    t.en = true ∧ t.period = s.period ∧ t.cooldown = s.cooldown

/-- Until EN is set there is no tick, every channel stays at its rest value, and a COUNT that is not written
stays: a delay never ends (70 R232, R236; 41 R141). -/
def Obligations.StoppedBlockNeverTicks : Prop :=
  ∀ (k : Nat) (s t : State), Inv s → ResetReleased k s → after k s = some t → t.en = false →
    ticksIn k s = 0 ∧ (∀ c ∈ t.ch, c = Channel.rest) ∧ (NoCountWrite k s → t.count = s.count)

/-- With EN = 1 and TVAL = v, the edge j edges from now ticks exactly when j = v + m * PERIOD for some m:
ticks come exactly every PERIOD cycles, whatever the transactions (40 R101, R103). -/
def Obligations.TicksComeEveryPeriod : Prop :=
  ∀ (j : Nat) (s t : State), Inv s → s.en = true → ResetReleased j s → after j s = some t →
    (TickAt t ↔ ∃ m, j = s.tval.toNat + m * s.period.toNat)

/-- After an edge that performs a WR_COUNT of D, and with no later WR_COUNT, COUNT is D less the number of
ticks since, or 0 (40 R114, first part; 40 R105, R111 case 1). -/
def Obligations.CountdownCountsTheTicks : Prop :=
  ∀ (k : Nat) (s u t : State) (d : Word), (nextCycle s).rstN = true →
    requestedOp s.params.n (nextCycle s).req = some (.wrCount d) → step s = .next u →
    ResetReleased k u → NoCountWrite k u → after k u = some t →
    t.count.toNat = d.toNat - ticksIn k u

/-- In cycles: with EN = 1, TVAL = v and COUNT = D at least 1, and no later WR_COUNT, COUNT reads 0 exactly
from v + 1 + (D - 1) * PERIOD edges on (40 R114, second part; 70 R238). -/
def Obligations.CountReachesZeroOnTime : Prop :=
  ∀ (k : Nat) (s t : State), Inv s → s.en = true → 1 ≤ s.count.toNat →
    ResetReleased k s → NoCountWrite k s → after k s = some t →
    (t.count = 0#32 ↔ s.tval.toNat + 1 + (s.count.toNat - 1) * s.period.toNat ≤ k)

/-- Two accepted transitions of one channel are at least COOLDOWN + 1 ticks apart: between them there are at
least COOLDOWN ticks, and at the first COOLDOWN of those the channel counts down and keeps its stable state
(40 R113). -/
def Obligations.AcceptedTransitionsAreSpaced : Prop :=
  ∀ (k i : Nat) (s u t : State), (nextCycle s).rstN = true → i < s.ch.length →
    Accepts (beginCycle s) i → step s = .next u → ResetReleased k u → after k u = some t →
    (ticksIn k u ≤ s.cooldown.toNat →
      (t.chan i).dbt.toNat = s.cooldown.toNat - ticksIn k u ∧ (t.chan i).stable = (u.chan i).stable) ∧
    (Accepts (beginCycle t) i → s.cooldown.toNat ≤ ticksIn k u)

/-- No accepted transition is lost: its flag stays set until an RD_EVENT, and that RD_EVENT, performed from
the state t it finds, returns the flag and the stable state of t (43 R173). -/
def Obligations.NoTransitionIsLost : Prop :=
  ∀ (k i : Nat) (s u t : State), (nextCycle s).rstN = true → s.params.legal = true →
    i < s.ch.length → i < s.params.n →
    Accepts (beginCycle s) i → step s = .next u → ResetReleased k u → NoEventRead k u →
    after k u = some t →
    (t.chan i).changed = true ∧
    ∃ (v : State) (w : Word), exec .rdEvent t = .next v ∧ v.resp = .okay w ∧
      w.getLsbD (16 + i) = true ∧ w.getLsbD i = (t.chan i).stable

/-- With no accepted transition at the first edge, RD_CHANGED twice answers the same; and after an RD_EVENT
at such an edge, RD_CHANGED answers 0 and a second RD_EVENT returns no flag (43 R176). -/
def Obligations.FlagReadsAreIdempotent : Prop :=
  ∀ s t : State, s.params.legal = true → s.ch.length = s.params.n → (∀ i, ¬ Accepts s i) →
    (exec .rdChanged s = .next t →
      ∃ u, exec .rdChanged t = .next u ∧ u.resp = t.resp) ∧
    (exec .rdEvent s = .next t →
      ∃ u v, exec .rdChanged t = .next u ∧ u.resp = .okay 0#32 ∧
        exec .rdEvent t = .next v ∧ ∀ w, v.resp = .okay w → w.toNat < 65536)

/-- One lane depends on nothing of another: two states that agree on lane i's own fields, level and polarity
and on EN, TVAL, COOLDOWN and N agree on lane i after the same transaction (40 R110, 42 R156). -/
def Obligations.LanesDoNotInterfere : Prop :=
  ∀ (op : Instr) (i : Nat) (s s' t t' : State), i < s.ch.length → i < s'.ch.length →
    s.chan i = s'.chan i → s.en = s'.en → s.tval = s'.tval → s.cooldown = s'.cooldown →
    s.params.n = s'.params.n → s.raw.getLsbD i = s'.raw.getLsbD i →
    s.params.polarity.getLsbD i = s'.params.polarity.getLsbD i →
    exec op s = .next t → exec op s' = .next t' → t.chan i = t'.chan i

/-- The clock step refines the tick-level abstraction, in state and response, for every request, accepted or
rejected: at an edge that ticks, a read is the transaction and then the tick (so its response is of the state
before the tick), a write the tick and then the transaction; at another edge it is the transaction alone; an
Idle cycle is the tick alone, or nothing (40 R116). What an RD_TVAL answers in the abstraction is drawn as TVAL
(the draw is the model's reading, log entry 20). -/
def Obligations.ClockStepRefinesTickModel : Prop :=
  ∀ s t : State, (nextCycle s).rstN = true → step s = .next t →
    (∀ td wdata, (nextCycle s).req.present = some (td, wdata) →
      (TickAt s → tdWrite td = false →
        tickView t = tickEvent (nextCycle s).raw (txnEvent s.tval td wdata (tickView s)).1 ∧
          t.resp = (txnEvent s.tval td wdata (tickView s)).2) ∧
      (TickAt s → tdWrite td = true →
        (tickView t, t.resp) = txnEvent s.tval td wdata (tickEvent (nextCycle s).raw (tickView s))) ∧
      (¬ TickAt s → (tickView t, t.resp) = txnEvent s.tval td wdata (tickView s))) ∧
    ((nextCycle s).req.present = none → t.resp = .none ∧
      (TickAt s → tickView t = tickEvent (nextCycle s).raw (tickView s)) ∧
      (¬ TickAt s → tickView t = tickView s))

/-- The fault record only grows, an ERROR response is always recorded, and a step that records nothing
answers no error (60 R200, 93; the record is the model's own, log entry 6). -/
def Obligations.EveryErrorIsRecorded : Prop :=
  ∀ s t : State, step s = .next t →
    ∃ new, t.faults = s.faults ++ new ∧
      ∀ c, t.resp = .error c ↔ ∃ td w, Fault.busError c td w ∈ new

/-- Every run of the clock step with reset released is a run of the tick-level abstraction: its events, in the
order of the edges, lead to the view of the last state and give the same responses, and each of its ticks comes
while EN = 1 (40 R116; that ticks are tied to EN, log entry 20). -/
def Obligations.EveryRunIsATickModelRun : Prop :=
  ∀ (k : Nat) (s t : State), ResetReleased k s → after k s = some t →
    runEvents (eventsIn k s) (tickView s) = (tickView t, responsesIn k s) ∧
      TicksArmed (eventsIn k s) (tickView s)
end

