-- ==== Sys2Proof/Laws/State.lean ====
section
/-! SUPPORT. One lemma for each field of the state and each update the machine makes of it, true by `rfl`. -/

namespace Sys2Proof.Machine

open Sys2Proof

section Merge

variable (s : State) (tvn : Word) (t : TickResult) (eff : Effect) (wdata : Word)

@[simp] theorem merge_en : (merge s tvn t eff wdata).en = if eff.setEN then true else s.en := rfl
@[simp] theorem merge_tval : (merge s tvn t eff wdata).tval = if eff.setEN then s.period - 1#32 else tvn := rfl
@[simp] theorem merge_period : (merge s tvn t eff wdata).period = if eff.wrPERIOD then wdata else s.period := rfl
@[simp] theorem merge_cooldown :
    (merge s tvn t eff wdata).cooldown = if eff.wrCOOLDOWN then cooldownData wdata else s.cooldown := rfl
@[simp] theorem merge_count : (merge s tvn t eff wdata).count = if eff.wrCOUNT then wdata else t.count := rfl
@[simp] theorem merge_ch :
    (merge s tvn t eff wdata).ch = (s.ch.zip t.lanes).mapIdx fun i p => mergeLane eff.clr i p.1 p.2 := rfl
@[simp] theorem merge_params : (merge s tvn t eff wdata).params = s.params := rfl
@[simp] theorem merge_inbox : (merge s tvn t eff wdata).inbox = s.inbox := rfl
@[simp] theorem merge_raw : (merge s tvn t eff wdata).raw = s.raw := rfl
@[simp] theorem merge_draws : (merge s tvn t eff wdata).draws = s.draws := rfl
@[simp] theorem merge_resp : (merge s tvn t eff wdata).resp = s.resp := rfl
@[simp] theorem merge_tickO : (merge s tvn t eff wdata).tickO = s.tickO := rfl
@[simp] theorem merge_faults : (merge s tvn t eff wdata).faults = s.faults := rfl

end Merge

section ClockEdge

variable (s : State) (r : Response) (eff : Effect) (wdata : Word)

@[simp] theorem clockEdge_en : (clockEdge s r eff wdata).en = if eff.setEN then true else s.en := rfl
@[simp] theorem clockEdge_tval :
    (clockEdge s r eff wdata).tval = if eff.setEN then s.period - 1#32 else prescale s := rfl
@[simp] theorem clockEdge_period :
    (clockEdge s r eff wdata).period = if eff.wrPERIOD then wdata else s.period := rfl
@[simp] theorem clockEdge_cooldown :
    (clockEdge s r eff wdata).cooldown = if eff.wrCOOLDOWN then cooldownData wdata else s.cooldown := rfl
@[simp] theorem clockEdge_count :
    (clockEdge s r eff wdata).count = if eff.wrCOUNT then wdata else (tickPart s).count := rfl
@[simp] theorem clockEdge_params : (clockEdge s r eff wdata).params = s.params := rfl
@[simp] theorem clockEdge_inbox : (clockEdge s r eff wdata).inbox = s.inbox := rfl
@[simp] theorem clockEdge_raw : (clockEdge s r eff wdata).raw = s.raw := rfl
@[simp] theorem clockEdge_draws : (clockEdge s r eff wdata).draws = s.draws := rfl
@[simp] theorem clockEdge_resp : (clockEdge s r eff wdata).resp = r := rfl
@[simp] theorem clockEdge_tickO : (clockEdge s r eff wdata).tickO = tickDue s := rfl
@[simp] theorem clockEdge_faults : (clockEdge s r eff wdata).faults = s.faults := rfl

end ClockEdge

section BusErrorEdge

variable (c : Cause) (td : TD) (wdata : Word) (s : State)

/-- Outside the fault record an error edge is the edge with no effect (60 R200). -/
theorem busErrorEdge_eq : busErrorEdge c td wdata s =
    { clockEdge s (.error c) noEffect wdata with faults := s.faults ++ [errorFault c td wdata] } := rfl
@[simp] theorem busErrorEdge_en : (busErrorEdge c td wdata s).en = s.en := rfl
@[simp] theorem busErrorEdge_tval : (busErrorEdge c td wdata s).tval = prescale s := rfl
@[simp] theorem busErrorEdge_period : (busErrorEdge c td wdata s).period = s.period := rfl
@[simp] theorem busErrorEdge_cooldown : (busErrorEdge c td wdata s).cooldown = s.cooldown := rfl
@[simp] theorem busErrorEdge_count : (busErrorEdge c td wdata s).count = (tickPart s).count := rfl
@[simp] theorem busErrorEdge_ch :
    (busErrorEdge c td wdata s).ch = (clockEdge s (.error c) noEffect wdata).ch := rfl
@[simp] theorem busErrorEdge_params : (busErrorEdge c td wdata s).params = s.params := rfl
@[simp] theorem busErrorEdge_inbox : (busErrorEdge c td wdata s).inbox = s.inbox := rfl
@[simp] theorem busErrorEdge_raw : (busErrorEdge c td wdata s).raw = s.raw := rfl
@[simp] theorem busErrorEdge_draws : (busErrorEdge c td wdata s).draws = s.draws := rfl
@[simp] theorem busErrorEdge_resp : (busErrorEdge c td wdata s).resp = .error c := rfl
@[simp] theorem busErrorEdge_tickO : (busErrorEdge c td wdata s).tickO = tickDue s := rfl
@[simp] theorem busErrorEdge_faults :
    (busErrorEdge c td wdata s).faults = s.faults ++ [errorFault c td wdata] := rfl

end BusErrorEdge

section ResetEdge

variable (s : State)

@[simp] theorem resetEdge_en : (resetEdge s).en = false := rfl
@[simp] theorem resetEdge_tval : (resetEdge s).tval = 0#32 := rfl
@[simp] theorem resetEdge_period : (resetEdge s).period = 0#32 := rfl
@[simp] theorem resetEdge_cooldown : (resetEdge s).cooldown = s.params.cooldownReset := rfl
@[simp] theorem resetEdge_count : (resetEdge s).count = 0#32 := rfl
@[simp] theorem resetEdge_ch : (resetEdge s).ch = List.replicate s.params.n Channel.rest := rfl
@[simp] theorem resetEdge_params : (resetEdge s).params = s.params := rfl
@[simp] theorem resetEdge_inbox : (resetEdge s).inbox = s.inbox := rfl
@[simp] theorem resetEdge_raw : (resetEdge s).raw = s.raw := rfl
@[simp] theorem resetEdge_draws : (resetEdge s).draws = s.draws := rfl
@[simp] theorem resetEdge_resp : (resetEdge s).resp = .none := rfl
@[simp] theorem resetEdge_tickO : (resetEdge s).tickO = false := rfl
@[simp] theorem resetEdge_faults : (resetEdge s).faults = s.faults := rfl

end ResetEdge

section BeginCycle

variable (s : State)

/-- Taking a cycle's inputs changes only the raw levels, the queue and the draw counter. -/
theorem beginCycle_eq : beginCycle s =
    { s with
      raw := (nextCycle s).raw, inbox := s.inbox.tail, draws := (beginCycle s).draws } := by
  unfold beginCycle nextCycle
  cases s.inbox <;> rfl
@[simp] theorem beginCycle_en : (beginCycle s).en = s.en := by rw [beginCycle_eq]
@[simp] theorem beginCycle_tval : (beginCycle s).tval = s.tval := by rw [beginCycle_eq]
@[simp] theorem beginCycle_period : (beginCycle s).period = s.period := by rw [beginCycle_eq]
@[simp] theorem beginCycle_cooldown : (beginCycle s).cooldown = s.cooldown := by rw [beginCycle_eq]
@[simp] theorem beginCycle_count : (beginCycle s).count = s.count := by rw [beginCycle_eq]
@[simp] theorem beginCycle_ch : (beginCycle s).ch = s.ch := by rw [beginCycle_eq]
@[simp] theorem beginCycle_params : (beginCycle s).params = s.params := by rw [beginCycle_eq]
@[simp] theorem beginCycle_raw : (beginCycle s).raw = (nextCycle s).raw := by rw [beginCycle_eq]
@[simp] theorem beginCycle_inbox : (beginCycle s).inbox = s.inbox.tail := by rw [beginCycle_eq]
@[simp] theorem beginCycle_resp : (beginCycle s).resp = s.resp := by rw [beginCycle_eq]
@[simp] theorem beginCycle_tickO : (beginCycle s).tickO = s.tickO := by rw [beginCycle_eq]
@[simp] theorem beginCycle_faults : (beginCycle s).faults = s.faults := by rw [beginCycle_eq]

end BeginCycle

section NoteFetch

variable (q : Request) (s : State)

/-- Noting a fetch changes only the fault record. -/
theorem noteFetch_eq : noteFetch q s = { s with faults := (noteFetch q s).faults } := by
  cases q <;> rfl
@[simp] theorem noteFetch_en : (noteFetch q s).en = s.en := by rw [noteFetch_eq]
@[simp] theorem noteFetch_tval : (noteFetch q s).tval = s.tval := by rw [noteFetch_eq]
@[simp] theorem noteFetch_period : (noteFetch q s).period = s.period := by rw [noteFetch_eq]
@[simp] theorem noteFetch_cooldown : (noteFetch q s).cooldown = s.cooldown := by rw [noteFetch_eq]
@[simp] theorem noteFetch_count : (noteFetch q s).count = s.count := by rw [noteFetch_eq]
@[simp] theorem noteFetch_ch : (noteFetch q s).ch = s.ch := by rw [noteFetch_eq]
@[simp] theorem noteFetch_params : (noteFetch q s).params = s.params := by rw [noteFetch_eq]
@[simp] theorem noteFetch_inbox : (noteFetch q s).inbox = s.inbox := by rw [noteFetch_eq]
@[simp] theorem noteFetch_raw : (noteFetch q s).raw = s.raw := by rw [noteFetch_eq]
@[simp] theorem noteFetch_draws : (noteFetch q s).draws = s.draws := by rw [noteFetch_eq]
@[simp] theorem noteFetch_resp : (noteFetch q s).resp = s.resp := by rw [noteFetch_eq]
@[simp] theorem noteFetch_tickO : (noteFetch q s).tickO = s.tickO := by rw [noteFetch_eq]

end NoteFetch

end Sys2Proof.Machine
end

