-- ==== Sys2Proof/Laws/Ops.lean ====
section
/-! SUPPORT. One lemma for each shared operation, saying once what it can do: the lanes of an edge, what
`finish`, `exec` and `step` answer, the saturating decrement, the lane vectors. -/

namespace Sys2Proof.Machine

open Sys2Proof

/-! ## Arithmetic and vectors -/

/-- The saturating decrement is truncated subtraction (00 R12). -/
theorem satDec_toNat (v : Word) : (satDec v).toNat = v.toNat - 1 := by
  unfold satDec
  split
  · next h => subst h; rfl
  · next h => bv_omega

theorem tickDue_iff (s : State) : tickDue s = true ↔ TickAt s := by
  simp [tickDue, TickAt]

theorem logicalLevel_eq (s : State) (i : Nat) :
    logicalLevel s i = (s.raw.getLsbD i ^^ s.params.polarity.getLsbD i) := rfl

theorem inCooldown_iff (c : Channel) : c.inCooldown = true ↔ c.dbt ≠ 0#16 := by
  simp [Channel.inCooldown]

/-- Bit i of a lane vector: the lane's bit where the lane exists, below n and below 16; else 0. -/
theorem getLsbD_laneVec (n : Nat) (f : Channel → Bool) (ch : List Channel) (i : Nat) :
    (laneVec n f ch).getLsbD i = (decide (i < 16 ∧ i < n ∧ i < ch.length) && f (ch.getD i Channel.rest)) := by
  unfold laneVec
  rw [BitVec.getLsbD_setWidth, BitVec.getLsbD_ofBoolListLE]
  by_cases h16 : i < 16 <;> by_cases hn : i < n <;> by_cases hl : i < ch.length <;>
    simp [List.getD, h16, hn, hl]

/-! ## The lanes of an edge -/

theorem tickPart_lanes_length (s : State) : (tickPart s).lanes.length = s.ch.length := by
  unfold tickPart tickUpdate noTick
  split <;> simp

@[simp] theorem clockEdge_ch_length (s : State) (r : Response) (eff : Effect) (wdata : Word) :
    (clockEdge s r eff wdata).ch.length = s.ch.length := by
  simp [clockEdge, tickPart_lanes_length]

/-- Lane i after an edge (40 R104, R111). -/
theorem clockEdge_chan (s : State) (r : Response) (eff : Effect) (wdata : Word) {i : Nat}
    (hi : i < s.ch.length) :
    (clockEdge s r eff wdata).chan i =
      mergeLane eff.clr i (s.chan i) (if tickDue s then tickLane s i (s.chan i) else holdLane (s.chan i)) := by
  have hl := tickPart_lanes_length s
  have hc : s.chan i = s.ch[i] := by simp [State.chan, List.getD, hi]
  have hlane : (tickPart s).lanes[i]'(by omega) =
      if tickDue s then tickLane s i (s.chan i) else holdLane (s.chan i) := by
    rw [hc]
    unfold tickPart tickUpdate noTick
    split <;> simp
  rw [← hlane, hc]
  simp [State.chan, clockEdge, List.getD, hi, hl]

/-- A tick decides a lane by its cooldown and its level (40 R106 to R108). -/
theorem tickLane_cases (s : State) (i : Nat) (c : Channel) :
    (c.dbt ≠ 0#16 ∧ tickLane s i c = { dbt := c.dbt - 1#16, stable := c.stable, set := false }) ∨
    (c.dbt = 0#16 ∧ logicalLevel s i ≠ c.stable ∧
      tickLane s i c = { dbt := s.cooldown, stable := logicalLevel s i, set := true }) ∨
    (c.dbt = 0#16 ∧ logicalLevel s i = c.stable ∧ tickLane s i c = holdLane c) := by
  unfold tickLane Channel.inCooldown
  by_cases hd : c.dbt = 0#16 <;> by_cases hl : logicalLevel s i = c.stable <;> simp [hd, hl]

/-! ## Meanings and steps -/

/-- Every meaning is its `perform`, finished (40 R100). -/
theorem exec_eq_finish (i : Instr) (s : State) : exec i s = finish i (performInstr i s) s := by
  cases i <;> rfl

/-- What an edge that performs a transaction can be: a normal one with its effect, or an error with none. -/
theorem finish_cases {i : Instr} {p : Performed} {s t : State} (h : finish i p s = .next t) :
    (∃ rdata eff, p = .done rdata eff ∧ t = clockEdge s (.okay rdata) eff (encode i).2) ∨
    (∃ c, p = .raise c ∧ t = busErrorEdge c (encode i).1 (encode i).2 s) := by
  cases p with
  | done rdata eff => exact .inl ⟨rdata, eff, rfl, by simpa [finish] using h.symm⟩
  | raise c => exact .inr ⟨c, rfl, by simpa [finish] using h.symm⟩

/-- EN is set only where the rule allows it, and the locked registers are written only while EN = 0
(41 R132, R134; 42 R152). -/
theorem perform_guards (i : Instr) (s : State) :
    ((performInstr i s).effect.setEN = true → s.en = false ∧ s.period ≠ 0#32) ∧
    ((performInstr i s).effect.wrPERIOD = true → s.en = false) ∧
    ((performInstr i s).effect.wrCOOLDOWN = true → s.en = false) := by
  cases i <;>
    simp [performInstr, performRdCtrl, performWrCtrl, performRdPeriod, performWrPeriod, performRdTval,
      performRdCount, performWrCount, performRdCooldown, performWrCooldown, performRdCfg, performRdState,
      performRdDbcnt, performRdChanged, performRdEvent] <;>
    (try split) <;> (try split) <;> simp_all [Performed.effect, noEffect]

/-- What a step can be: a reset, an idle edge, a transaction, or an error. -/
theorem step_cases {s t : State} (h : step s = .next t) :
    ((nextCycle s).rstN = false ∧ t = resetEdge (beginCycle s)) ∨
    ((nextCycle s).rstN = true ∧
      ((decodeRequest s.params.n (nextCycle s).req = .idle ∧ t = idleEdge (beginCycle s)) ∨
      (∃ i, decodeRequest s.params.n (nextCycle s).req = .op i ∧
        exec i (noteFetch (nextCycle s).req (beginCycle s)) = .next t) ∨
      (∃ c td w, decodeRequest s.params.n (nextCycle s).req = .error c td w ∧
        t = busErrorEdge c td w (noteFetch (nextCycle s).req (beginCycle s))))) := by
  unfold step at h
  split at h
  · next hr => exact .inl ⟨hr, by simpa using h.symm⟩
  · next hr =>
    refine .inr ⟨by simpa using hr, ?_⟩
    split at h
    · next hd => exact .inl ⟨hd, by simpa using h.symm⟩
    · next i hd => exact .inr (.inl ⟨i, hd, h⟩)
    · next c td w hd => exact .inr (.inr ⟨c, td, w, hd, by simpa using h.symm⟩)

end Sys2Proof.Machine
end

