-- ==== Sys2Proof/Laws/Edge.lean ====
section
/-! SUPPORT. What every clock edge does, in the terms of Safety.lean: one lemma for each part of the frame. -/

namespace Sys2Proof.Machine

open Sys2Proof

section

variable (s : State) (r : Response) (eff : Effect) (wdata : Word)

theorem clockEdge_keeps : EdgeKeeps s (clockEdge s r eff wdata) where
  params := rfl
  inbox := rfl
  raw := rfl
  draws := rfl
  lanes := clockEdge_ch_length s r eff wdata
  tickO := tickDue_iff s

/-- Every lane runs as the channel state machine says, whatever the transaction (10 R38). -/
theorem clockEdge_laneRuns {i : Nat} (hi : i < s.ch.length) : LaneRuns s (clockEdge s r eff wdata) i := by
  have hc := clockEdge_chan s r eff wdata hi
  have hdue := tickDue_iff s
  have hcases := tickLane_cases s i (s.chan i)
  simp only [logicalLevel_eq] at hcases
  constructor
  · intro h
    have : tickDue s = false := by simpa [← hdue] using h
    simp [hc, this, mergeLane, holdLane]
  · intro h hd
    have : tickDue s = true := hdue.mpr h
    obtain ⟨-, h1⟩ | ⟨h0, -⟩ | ⟨h0, -⟩ := hcases
    · simp [hc, this, h1, mergeLane]
    · exact absurd h0 hd
    · exact absurd h0 hd
  · intro h hd hl
    have : tickDue s = true := hdue.mpr h
    obtain ⟨h1, -⟩ | ⟨-, -, h1⟩ | ⟨-, h1, -⟩ := hcases
    · exact absurd hd h1
    · simp [hc, this, h1, mergeLane]
    · exact absurd h1 hl
  · intro h hd hl
    have : tickDue s = true := hdue.mpr h
    obtain ⟨h1, -⟩ | ⟨-, h1, -⟩ | ⟨-, -, h1⟩ := hcases
    · exact absurd hd h1
    · exact absurd hl h1
    · simp [hc, this, h1, mergeLane, holdLane, hd]

theorem clockEdge_edgeRuns : EdgeRuns s (clockEdge s r eff wdata) where
  keeps := clockEdge_keeps s r eff wdata
  laneRuns := fun _ hi => clockEdge_laneRuns s r eff wdata hi

/-- A flag after an edge: set by an accepted transition, else kept unless it is cleared (40 R111). -/
theorem clockEdge_changed {i : Nat} (hi : i < s.ch.length) :
    ((clockEdge s r eff wdata).chan i).changed = true ↔
      ((s.chan i).changed = true ∧ eff.clr.getLsbD i = false) ∨ Accepts s i := by
  rw [clockEdge_chan s r eff wdata hi]
  by_cases hdue : tickDue s = true
  · have ht := (tickDue_iff s).mp hdue
    have hcases := tickLane_cases s i (s.chan i)
    simp only [logicalLevel_eq] at hcases
    obtain ⟨h0, h1⟩ | ⟨h0, hl, h1⟩ | ⟨h0, hl, h1⟩ := hcases <;>
      simp [mergeLane, Accepts, holdLane, *]
  · have ht : ¬ TickAt s := fun h => hdue ((tickDue_iff s).mpr h)
    simp [mergeLane, holdLane, hdue, Accepts, ht]

theorem clockEdge_flagsKept (h : eff.clr = 0#16) : FlagsKept s (clockEdge s r eff wdata) := by
  intro i hi
  rw [clockEdge_changed s r eff wdata hi, h]
  simp

theorem clockEdge_prescaler (h : eff.setEN = false) : PrescalerRuns s (clockEdge s r eff wdata) := by
  constructor <;> intros <;> simp_all [prescale]

theorem clockEdge_countdown (h : eff.wrCOUNT = false) : CountdownRuns s (clockEdge s r eff wdata) := by
  constructor
  · intro ht
    have : tickDue s = false := by simpa [← tickDue_iff] using ht
    simp [h, tickPart, this, noTick]
  · intro ht
    have : tickDue s = true := (tickDue_iff s).mpr ht
    simp [h, tickPart, this, tickUpdate, satDec_toNat]

/-- An edge with no effect is quiet (40 R112). -/
theorem clockEdge_quiet : QuietEdge s (clockEdge s r noEffect wdata) where
  edge := clockEdge_edgeRuns s r noEffect wdata
  flags := clockEdge_flagsKept s r noEffect wdata rfl
  prescaler := clockEdge_prescaler s r noEffect wdata rfl
  countdown := clockEdge_countdown s r noEffect wdata rfl
  en := rfl
  period := rfl
  cooldown := rfl

end

/-- The frame of an edge does not read the fault record, so a record beside it changes nothing. -/
theorem EdgeRuns.withFaults {s t : State} (h : EdgeRuns s t) (fs : List Fault) :
    EdgeRuns s { t with faults := fs } :=
  ⟨⟨h.keeps.params, h.keeps.inbox, h.keeps.raw, h.keeps.draws, h.keeps.lanes, h.keeps.tickO⟩,
    fun i hi => ⟨(h.laneRuns i hi).holds, (h.laneRuns i hi).cools, (h.laneRuns i hi).accepts,
      (h.laneRuns i hi).stays⟩⟩

/-- A quiet edge stays one with a fault record beside it. -/
theorem QuietEdge.withFaults {s t : State} (h : QuietEdge s t) (fs : List Fault) :
    QuietEdge s { t with faults := fs } :=
  ⟨h.edge.withFaults fs, h.flags, ⟨h.prescaler.holds, h.prescaler.reloads, h.prescaler.counts⟩,
    ⟨h.countdown.holds, h.countdown.ticks⟩, h.en, h.period, h.cooldown⟩

/-- An error edge is quiet (60 R200). -/
theorem busErrorEdge_quiet (c : Cause) (td : TD) (wdata : Word) (s : State) :
    QuietEdge s (busErrorEdge c td wdata s) :=
  (clockEdge_quiet s (.error c) wdata).withFaults _

/-- A transaction whose `perform` has no effect answers quietly. -/
theorem answersQuietly_of_perform {i : Instr} {s : State} {w : Word}
    (h : performInstr i s = .done w noEffect) : AnswersQuietly i s (.okay w) := by
  refine ⟨clockEdge s (.okay w) noEffect (encode i).2, ?_, rfl, rfl, clockEdge_quiet _ _ _⟩
  rw [exec_eq_finish, h]
  rfl

/-- A transaction whose `perform` raises an error is an error edge. -/
theorem errorsQuietly_of_perform {i : Instr} {s : State} {c : Cause}
    (h : performInstr i s = .raise c) :
    ErrorsQuietly i s c (errorFault c (encode i).1 (encode i).2) := by
  refine ⟨busErrorEdge c (encode i).1 (encode i).2 s, ?_, rfl, rfl, busErrorEdge_quiet _ _ _ _⟩
  rw [exec_eq_finish, h]
  rfl

/-- What `perform` gives does not read the fault record. -/
theorem performInstr_noteFetch (i : Instr) (q : Request) (s : State) :
    performInstr i (noteFetch q s) = performInstr i s := by
  rw [noteFetch_eq]
  cases i <;> rfl

/-- A step that is no reset is one clock edge of the state with its cycle's inputs taken, with the effect of
the operation requested or none, and some fault record beside it (40 R100). -/
theorem step_edge {s t : State} (hr : (nextCycle s).rstN = true) (h : step s = .next t) :
    ∃ r eff w fs, t = { clockEdge (beginCycle s) r eff w with faults := fs } ∧
      (eff = noEffect ∨ ∃ i, requestedOp s.params.n (nextCycle s).req = some i ∧
        eff = (performInstr i (beginCycle s)).effect ∧ w = (encode i).2) := by
  obtain ⟨h0, -⟩ | ⟨-, ⟨-, ht⟩ | ⟨i, hd, he⟩ | ⟨c, td, w, -, ht⟩⟩ := step_cases h
  · simp [hr] at h0
  · exact ⟨.none, noEffect, 0#32, (beginCycle s).faults, by rw [ht]; rfl, .inl rfl⟩
  · rw [exec_eq_finish, performInstr_noteFetch] at he
    obtain ⟨r, e, hp, ht⟩ | ⟨c, -, ht⟩ := finish_cases he
    · refine ⟨.okay r, e, (encode i).2, (noteFetch (nextCycle s).req (beginCycle s)).faults, ?_,
        .inr ⟨i, by simp [requestedOp, hd], by rw [hp]; rfl, rfl⟩⟩
      rw [ht, noteFetch_eq]
      rfl
    · refine ⟨.error c, noEffect, (encode i).2, t.faults, ?_, .inl rfl⟩
      rw [ht, noteFetch_eq]
      rfl
  · refine ⟨.error c, noEffect, w, t.faults, ?_, .inl rfl⟩
    rw [ht, noteFetch_eq]
    rfl

end Sys2Proof.Machine
end

