-- ==== Sys2Proof/Laws/PerInstr.lean ====
section
/-! SUPPORT. A family of lemmas, one for each transaction: its descriptor is an aligned word access whose W bit
says whether it is a write (30_encoding.md R70 to R73). -/

namespace Sys2Proof.Laws.EncodeLegal

open Sys2Proof

/-- The fields of an encoded transaction: SIZE is a word, OFFSET is aligned, W tells a write. -/
def Statement (i : Instr) : Prop :=
  tdSize (encode i).1 = wordSize ∧ (tdOffset (encode i).1).extractLsb' 0 2 = 0b00#2 ∧
    tdWrite (encode i).1 = i.isWrite

/-- The statement from the descriptor as the table writes it. -/
theorem of_descriptor {i : Instr} {td : TD} (htd : (encode i).1 = td)
    (h : tdSize td = wordSize ∧ (tdOffset td).extractLsb' 0 2 = 0b00#2 ∧ tdWrite td = i.isWrite) :
    Statement i := by
  unfold Statement
  rw [htd]
  exact h

theorem rdCtrl : Statement .rdCtrl := of_descriptor (td := 0x400#11) rfl (by decide)
theorem wrCtrl (wdata : Word) : Statement (.wrCtrl wdata) :=
  of_descriptor (td := 0x500#11) rfl (by simp only [Instr.isWrite]; decide)
theorem rdPeriod : Statement .rdPeriod := of_descriptor (td := 0x404#11) rfl (by decide)
theorem wrPeriod (wdata : Word) : Statement (.wrPeriod wdata) :=
  of_descriptor (td := 0x504#11) rfl (by simp only [Instr.isWrite]; decide)
theorem rdTval : Statement .rdTval := of_descriptor (td := 0x408#11) rfl (by decide)
theorem rdCount : Statement .rdCount := of_descriptor (td := 0x40C#11) rfl (by decide)
theorem wrCount (wdata : Word) : Statement (.wrCount wdata) :=
  of_descriptor (td := 0x50C#11) rfl (by simp only [Instr.isWrite]; decide)
theorem rdCooldown : Statement .rdCooldown := of_descriptor (td := 0x410#11) rfl (by decide)
theorem wrCooldown (wdata : Word) : Statement (.wrCooldown wdata) :=
  of_descriptor (td := 0x510#11) rfl (by simp only [Instr.isWrite]; decide)
theorem rdCfg : Statement .rdCfg := of_descriptor (td := 0x414#11) rfl (by decide)
theorem rdState : Statement .rdState := of_descriptor (td := 0x418#11) rfl (by decide)
theorem rdDbcnt (i : BitVec 4) : Statement (.rdDbcnt i) := by
  unfold Statement
  revert i
  decide
theorem rdChanged : Statement .rdChanged := of_descriptor (td := 0x41C#11) rfl (by decide)
theorem rdEvent : Statement .rdEvent := of_descriptor (td := 0x420#11) rfl (by decide)

end Sys2Proof.Laws.EncodeLegal
end

