-- ==== Sys2Proof/Laws/Runs.lean ====
section
/-! SUPPORT. Runs of steps, one step at a time: what the first step of a run does and which premises its rest
inherits. -/

namespace Sys2Proof.Machine

open Sys2Proof

theorem after_succ {k : Nat} {s t : State} :
    after (k + 1) s = some t ↔ ∃ u, step s = .next u ∧ after k u = some t := by
  cases h : step s <;> simp [after, h]

theorem ticksIn_succ {k : Nat} {s u : State} (h : step s = .next u) :
    ticksIn (k + 1) s = (if u.tickO then 1 else 0) + ticksIn k u := by
  simp [ticksIn, h]

/-- A step takes one cycle from the queue and keeps the parameters. -/
theorem step_inputs {s u : State} (h : step s = .next u) :
    u.params = s.params ∧ u.inbox = s.inbox.tail := by
  by_cases hr : (nextCycle s).rstN = true
  · obtain ⟨r, eff, w, fs, rfl, -⟩ := step_edge hr h
    simp
  · obtain ⟨-, rfl⟩ | ⟨h2, -⟩ := step_cases h
    · simp
    · exact absurd h2 hr

theorem nextCycle_mem_take {s : State} (k : Nat) (h : s.inbox ≠ []) :
    nextCycle s ∈ s.inbox.take (k + 1) := by
  unfold nextCycle
  cases hs : s.inbox <;> simp_all

theorem tail_take_subset {l : List Cycle} {k : Nat} {c : Cycle} (h : c ∈ l.tail.take k) :
    c ∈ l.take (k + 1) := by
  cases l with
  | nil => simp at h
  | cons a l => simpa using .inr h

/-- With nothing queued reset is released and nothing is requested. -/
theorem nextCycle_of_empty {s : State} (h : s.inbox = []) :
    (nextCycle s).rstN = true ∧ requestedOp s.params.n (nextCycle s).req = none := by
  simp [nextCycle, h, requestedOp, decodeRequest, Request.present]

theorem ResetReleased.head {k : Nat} {s : State} (h : ResetReleased (k + 1) s) :
    (nextCycle s).rstN = true := by
  by_cases hs : s.inbox = []
  · exact (nextCycle_of_empty hs).1
  · exact h _ (nextCycle_mem_take k hs)

theorem ResetReleased.tail {k : Nat} {s u : State} (h : ResetReleased (k + 1) s) (hu : step s = .next u) :
    ResetReleased k u := by
  intro c hc
  rw [(step_inputs hu).2] at hc
  exact h c (tail_take_subset hc)

theorem NoCountWrite.head {k : Nat} {s : State} (h : NoCountWrite (k + 1) s) (w : Word) :
    requestedOp s.params.n (nextCycle s).req ≠ some (.wrCount w) := by
  by_cases hs : s.inbox = []
  · simp [(nextCycle_of_empty hs).2]
  · exact h _ (nextCycle_mem_take k hs) w

theorem NoCountWrite.tail {k : Nat} {s u : State} (h : NoCountWrite (k + 1) s) (hu : step s = .next u) :
    NoCountWrite k u := by
  intro c hc
  rw [(step_inputs hu).2] at hc
  rw [(step_inputs hu).1]
  exact h c (tail_take_subset hc)

theorem NoEventRead.head {k : Nat} {s : State} (h : NoEventRead (k + 1) s) :
    requestedOp s.params.n (nextCycle s).req ≠ some .rdEvent := by
  by_cases hs : s.inbox = []
  · simp [(nextCycle_of_empty hs).2]
  · exact h _ (nextCycle_mem_take k hs)

theorem NoEventRead.tail {k : Nat} {s u : State} (h : NoEventRead (k + 1) s) (hu : step s = .next u) :
    NoEventRead k u := by
  intro c hc
  rw [(step_inputs hu).2] at hc
  rw [(step_inputs hu).1]
  exact h c (tail_take_subset hc)

end Sys2Proof.Machine
end

