-- ==== Sys2Proof/Laws/TickModel.lean ====
section
/-! SUPPORT. The tick-level abstraction: one lemma for each field of a view and of a state with a view, what a
transaction reads of a state, and runs of events cut in two. -/

namespace Sys2Proof.Machine

open Sys2Proof

section View

variable (s : State) (a : TickView) (phase : Word) (raw : Half)

@[simp] theorem tickView_params : (tickView s).params = s.params := rfl
@[simp] theorem tickView_en : (tickView s).en = s.en := rfl
@[simp] theorem tickView_period : (tickView s).period = s.period := rfl
@[simp] theorem tickView_count : (tickView s).count = s.count := rfl
@[simp] theorem tickView_cooldown : (tickView s).cooldown = s.cooldown := rfl
@[simp] theorem tickView_ch : (tickView s).ch = s.ch := rfl

@[simp] theorem toState_params : (a.toState phase raw).params = a.params := rfl
@[simp] theorem toState_en : (a.toState phase raw).en = a.en := rfl
@[simp] theorem toState_period : (a.toState phase raw).period = a.period := rfl
@[simp] theorem toState_count : (a.toState phase raw).count = a.count := rfl
@[simp] theorem toState_cooldown : (a.toState phase raw).cooldown = a.cooldown := rfl
@[simp] theorem toState_ch : (a.toState phase raw).ch = a.ch := rfl
@[simp] theorem toState_tval : (a.toState phase raw).tval = phase := rfl
@[simp] theorem toState_raw : (a.toState phase raw).raw = raw := rfl

/-- A state with a view has that view. -/
@[simp] theorem tickView_toState : tickView (a.toState phase raw) = a := rfl

end View

section Tick

variable (raw : Half) (a : TickView)

@[simp] theorem tickEvent_params : (tickEvent raw a).params = a.params := rfl
@[simp] theorem tickEvent_en : (tickEvent raw a).en = a.en := rfl
@[simp] theorem tickEvent_period : (tickEvent raw a).period = a.period := rfl
@[simp] theorem tickEvent_count : (tickEvent raw a).count = satDec a.count := rfl
@[simp] theorem tickEvent_cooldown : (tickEvent raw a).cooldown = a.cooldown := rfl

end Tick

/-- Taking a cycle's inputs does not change the view. -/
@[simp] theorem tickView_beginCycle (s : State) : tickView (beginCycle s) = tickView s := by
  simp [tickView]

/-- What a transaction gives reads nothing of a state but its view and the prescaler's phase. -/
theorem performTxn_toState (td : TD) (wdata : Word) (s : State) (raw : Half) :
    performTxn td wdata ((tickView s).toState s.tval raw) = performTxn td wdata s := by
  unfold performTxn
  rw [toState_params, tickView_params]
  cases decode s.params.n td wdata with
  | op i => cases i <;> rfl
  | error c => rfl

/-- A transaction's response in the abstraction is the one it has in the state viewed. -/
theorem txnEvent_response (td : TD) (wdata : Word) (s : State) :
    (txnEvent s.tval td wdata (tickView s)).2 = (performTxn td wdata s).response := by
  simp only [txnEvent, performTxn_toState]

theorem runEvents_append (es fs : List TickEvent) (a : TickView) :
    runEvents (es ++ fs) a =
      ((runEvents fs (runEvents es a).1).1, (runEvents es a).2 ++ (runEvents fs (runEvents es a).1).2) := by
  induction es generalizing a with
  | nil => rfl
  | cons e es ih => cases e <;> simp [runEvents, ih]

theorem ticksArmed_append (es fs : List TickEvent) (a : TickView) :
    TicksArmed (es ++ fs) a ↔ TicksArmed es a ∧ TicksArmed fs (runEvents es a).1 := by
  induction es generalizing a with
  | nil => simp [TicksArmed, runEvents]
  | cons e es ih => cases e <;> simp [TicksArmed, runEvents, ih, and_assoc]

end Sys2Proof.Machine
end

