-- ==== Sys2Proof/Tests/Slice0.lean ====
section
/-! SUPPORT. Small tests, each about one decoding or one step. Expected values are the spec's own vectors
(95_test_vectors.md, named in each comment) or worked out by hand from its rules. The second half holds the
witnesses: for each statement with hypotheses, states and operands that meet all of them. -/

namespace Sys2Proof.Tests

open Sys2Proof Sys2Proof.Machine

/-! ## Helpers -/

/-- The parameters of the vectors of 95: COOLDOWN_RESET = 100, given N and POLARITY. -/
def params (n : Nat) (polarity : Half) : Params :=
  { n := n, polarity := polarity, cooldownReset := 100#16, base := 0x40000000, fClk := 72000000 }

/-- After reset, N = 4, all inputs active-high. -/
def idle4 : State := State.resetOf (params 4 0#16)

/-- EN = 1 with a tick due at the next edge; PERIOD = 5. -/
def ticking : State := { idle4 with en := true, period := 5#32, tval := 0#32 }

/-- EN = 1, no tick due: TVAL = 3 of PERIOD = 8. -/
def running : State := { idle4 with en := true, period := 8#32, tval := 3#32 }

/-- The next state of an outcome. -/
def nextOf (o : Host.Outcome State Fault Refusal) : Option State :=
  match o with
  | .next s => some s
  | .fault _ => none
  | .refused _ => none

/-- The state with one cycle queued: reset released, raw levels 0. -/
def withTxn (s : State) (td : TD) (wdata : Word) : State :=
  { s with inbox := [{ rstN := true, req := .txn td wdata, raw := 0#16 }] }

/-- One lane's cooldown counter, stable state and flag. -/
def lane (dbt : Nat) (stable changed : Bool) : Channel := { dbt := BitVec.ofNat 16 dbt, stable, changed }

/-! ## Decoding: words written out from 30 R79 as SIZE W OFFSET -/

theorem test_decode_timebase :
    decode 4 0b10000000000#11 0#32 = .op .rdCtrl ∧ decode 4 0b10100000000#11 7#32 = .op (.wrCtrl 7#32) ∧
    decode 4 0b10000000100#11 0#32 = .op .rdPeriod ∧ decode 4 0b10100000100#11 7#32 = .op (.wrPeriod 7#32) ∧
    decode 4 0b10000001000#11 0#32 = .op .rdTval ∧
    decode 4 0b10000001100#11 0#32 = .op .rdCount ∧ decode 4 0b10100001100#11 7#32 = .op (.wrCount 7#32) := by
  decide

theorem test_decode_debounce :
    decode 4 0b10000010000#11 0#32 = .op .rdCooldown ∧
    decode 4 0b10100010000#11 7#32 = .op (.wrCooldown 7#32) ∧
    decode 4 0b10000010100#11 0#32 = .op .rdCfg ∧ decode 4 0b10000011000#11 0#32 = .op .rdState ∧
    decode 4 0b10001000000#11 0#32 = .op (.rdDbcnt 0#4) ∧ decode 4 0b10001001100#11 0#32 = .op (.rdDbcnt 3#4) ∧
    decode 16 0b10001111100#11 0#32 = .op (.rdDbcnt 15#4) := by
  decide

theorem test_decode_change_channel :
    decode 4 0b10000011100#11 0#32 = .op .rdChanged ∧ decode 4 0b10000100000#11 0#32 = .op .rdEvent := by
  decide

/-- T-ER-1 to T-ER-3: SIZE before every other cause. -/
theorem test_decode_size :
    decode 4 0x000#11 0#32 = .error .size ∧ decode 4 0x109#11 0#32 = .error .size ∧
    decode 4 0x600#11 0#32 = .error .size := by
  decide

/-- T-ER-4. -/
theorem test_decode_align : decode 4 0x402#11 0#32 = .error .align := by decide

/-- T-ER-5 to T-ER-7, T-DR-8: UNMAPPED before READONLY. -/
theorem test_decode_unmapped :
    decode 4 0x424#11 0#32 = .error .unmapped ∧ decode 4 0x480#11 0#32 = .error .unmapped ∧
    decode 4 0x4FC#11 0#32 = .error .unmapped ∧ decode 4 0x550#11 0#32 = .error .unmapped ∧
    decode 4 0x450#11 0#32 = .error .unmapped := by
  decide

/-- T-ER-8, T-TB-8, T-CH-8; a write to DBCNT[3] with N = 4 (60 R201). -/
theorem test_decode_readonly :
    decode 4 0x518#11 1#32 = .error .readonly ∧ decode 4 0x508#11 1#32 = .error .readonly ∧
    decode 4 0x520#11 0xFFFFFFFF#32 = .error .readonly ∧ decode 4 0x54C#11 0#32 = .error .readonly := by
  decide

theorem test_encode_words :
    encode (.wrCooldown 5#32) = (0x510#11, 5#32) ∧ encode (.rdDbcnt 2#4) = (0x448#11, 0#32) ∧
    encode .rdChanged = (0x41C#11, 0#32) := by
  decide

/-- The table numbers a word's bits as the descriptor's; a word above bit 10 is none. -/
theorem test_table_word :
    decodeTableWord 16 0x440 = some (.rdDbcnt 0#4) ∧ decodeTableWord 16 0x50C = some (.wrCount 0#32) ∧
    decodeTableWord 16 0x800 = none := by
  decide

/-- A table word is run by the very next step (log entry 8). -/
theorem test_fetch_word_runs :
    (nextOf (step (State.reset.withFetchWord 16 0x40C))).map (·.resp) = some (.okay 0#32) := by
  decide

/-- A host write of a word at BASE + 4 is WR_PERIOD's descriptor (00 R14, 30 R79). -/
theorem test_host_write : hostWrite (params 4 0#16) 0x40000004 4 3#32 = .txn 0x504#11 3#32 := by decide

/-! ## Well-formedness: what each check refuses -/

theorem test_index_at_n_refused :
    Instr.wellFormed 4 (.rdDbcnt 4#4) = false ∧ Instr.wellFormed 4 (.rdDbcnt 3#4) = true := by
  decide

theorem test_illegal_params_refused :
    (params 0 0#16).legal = false ∧ (params 17 0#16).legal = false ∧ (params 16 0#16).legal = true ∧
    Params.legal { params 4 0#16 with base := 4 } = false ∧
    Params.legal { params 4 0#16 with fClk := 0 } = false := by
  decide

/-! ## The clock: prescaler, countdown, lanes -/

/-- T-PS-2, T-PS-5. -/
theorem test_prescaler_reloads :
    (idleEdge ticking).tval = 4#32 ∧ (idleEdge ticking).tickO = true ∧
    (idleEdge { ticking with period := 0xFFFFFFFF#32 }).tval = 0xFFFFFFFE#32 := by
  decide

/-- T-PS-1, T-CT-7: stopped, nothing moves. -/
theorem test_stopped_holds :
    (idleEdge { idle4 with period := 5#32, count := 5#32 }).tval = 0#32 ∧
    (idleEdge { idle4 with period := 5#32, count := 5#32 }).count = 5#32 := by
  decide

/-- T-CT-2, T-CT-3. -/
theorem test_countdown_saturates :
    (idleEdge { ticking with count := 0#32 }).count = 0#32 ∧
    (idleEdge { ticking with count := 0xFFFFFFFF#32 }).count = 0xFFFFFFFE#32 := by
  decide

/-- T-DB-12: four channels at one tick. -/
theorem test_four_channels :
    (idleEdge { ticking with
      raw := 0b1011#16
      ch := [lane 0 false false, lane 3 false false, lane 0 true false, lane 0 false false] }).ch =
      [lane 100 true true, lane 2 false false, lane 100 false true, lane 100 true true] := by
  decide

/-- T-DB-2, T-DB-4, T-DB-6, T-DB-8 as four lanes, the second and third active-low. -/
theorem test_lanes_polarity_and_latest_wins :
    (idleEdge { ticking with
      params := params 4 0b0110#16
      raw := 0b0101#16
      ch := [lane 1 false false, lane 0 false false, lane 0 true false, lane 0 true true] }).ch =
      [lane 0 false false, lane 100 true true, lane 100 false true, lane 100 false true] := by
  decide

/-! ## The transactions -/

/-- 41 R131: after the edge that set EN the next RD_CTRL returns 1. -/
theorem test_rd_ctrl : (nextOf (exec .rdCtrl running)).map (·.resp) = some (.okay 1#32) := by decide

/-- T-TB-3: bits 31:1 are ignored. -/
theorem test_wr_ctrl_enables :
    (nextOf (exec (.wrCtrl 0xFFFFFFFF#32) { idle4 with period := 8#32 })).map (fun t => (t.en, t.tval)) =
      some (true, 7#32) := by
  decide

/-- T-TB-4: no reload when EN is already 1. -/
theorem test_wr_ctrl_again : (nextOf (exec (.wrCtrl 1#32) running)).map (·.tval) = some 2#32 := by decide

/-- T-TB-10. -/
theorem test_rd_period :
    (nextOf (exec .rdPeriod { idle4 with period := 72000#32 })).map (·.resp) = some (.okay 0x00011940#32) := by
  decide

/-- T-TB-6. -/
theorem test_wr_period_zero :
    (nextOf (exec (.wrPeriod 0#32) { idle4 with period := 9#32 })).map (fun t => (t.resp, t.period)) =
      some (.okay 0#32, 0#32) := by
  decide

/-- T-TB-7. -/
theorem test_wr_period_locked :
    (nextOf (exec (.wrPeriod 5#32) running)).map (fun t => (t.resp, t.period, t.faults)) =
      some (.error .locked, 8#32, [.busError .locked 0x504#11 (some 5#32)]) := by
  decide

/-- T-TB-9. -/
theorem test_rd_tval :
    (nextOf (exec .rdTval running)).map (fun t => (t.resp, t.tval)) = some (.okay 3#32, 2#32) := by
  decide

/-- T-CT-6: the read is of the value before the decrement. -/
theorem test_rd_count_at_tick :
    (nextOf (exec .rdCount { ticking with count := 1#32 })).map (fun t => (t.resp, t.count)) =
      some (.okay 1#32, 0#32) := by
  decide

/-- T-CT-4: the write wins over the tick. -/
theorem test_wr_count_at_tick :
    (nextOf (exec (.wrCount 7#32) { ticking with count := 3#32 })).map (·.count) = some 7#32 := by
  decide

/-- T-DR-1. -/
theorem test_rd_cooldown : (nextOf (exec .rdCooldown idle4)).map (·.resp) = some (.okay 0x64#32) := by decide

/-- T-DR-2: bits 31:16 are ignored. -/
theorem test_wr_cooldown :
    (nextOf (exec (.wrCooldown 0x00010005#32) idle4)).map (·.cooldown) = some 5#16 := by
  decide

/-- T-DR-3. -/
theorem test_wr_cooldown_locked :
    (nextOf (exec (.wrCooldown 1#32) running)).map (fun t => (t.resp, t.cooldown)) =
      some (.error .locked, 100#16) := by
  decide

/-- T-DR-4, T-DR-5. -/
theorem test_rd_cfg :
    (nextOf (exec .rdCfg (State.resetOf (params 4 0b1111#16)))).map (·.resp) = some (.okay 0x000F0004#32) ∧
    (nextOf (exec .rdCfg (State.resetOf (params 16 0x00FF#16)))).map (·.resp) = some (.okay 0x00FF0010#32) := by
  decide

/-- T-DR-6. -/
theorem test_rd_state :
    (nextOf (exec .rdState { running with
      ch := [lane 0 true false, lane 0 false true, lane 0 true false, lane 0 false false] })).map (·.resp) =
      some (.okay 0x5#32) := by
  decide

/-- T-DR-7. -/
theorem test_rd_dbcnt :
    (nextOf (exec (.rdDbcnt 2#4) { running with
      ch := [lane 0 false false, lane 7 false false, lane 42 false false, lane 0 false false] })).map (·.resp) =
      some (.okay 0x2A#32) := by
  decide

/-- T-DR-8: the index N is UNMAPPED. -/
theorem test_rd_dbcnt_unmapped :
    (nextOf (step (withTxn idle4 0x450#11 0#32))).map (·.resp) = some (.error .unmapped) := by
  decide

/-- T-CH-1. -/
theorem test_rd_changed :
    (nextOf (exec .rdChanged { running with
      ch := [lane 0 false false, lane 0 false true, lane 0 false false, lane 0 false false] })).map
      (fun t => (t.resp, (t.chan 1).changed)) = some (.okay 0x2#32, true) := by
  decide

/-- T-CH-2. -/
theorem test_rd_event_clears :
    (nextOf (exec .rdEvent { running with
      ch := [lane 9 true true, lane 0 false false, lane 0 false false, lane 0 true false] })).map
      (fun t => (t.resp, changedVec t)) = some (.okay 0x00010009#32, 0#16) := by
  decide

/-- T-CH-5: a tick's set wins over the clear. -/
theorem test_rd_event_set_wins :
    (nextOf (exec .rdEvent { ticking with
      raw := 0#16
      ch := [lane 0 false false, lane 0 true true, lane 0 false false, lane 0 false false] })).map
      (fun t => (t.resp, changedVec t, stableVec t)) = some (.okay 0x00020002#32, 2#16, 0#16) := by
  decide

/-! ## Errors, reset, fetch -/

/-- T-ER-12: the tick still happens at the edge of an error. -/
theorem test_error_still_ticks :
    (nextOf (step (withTxn { ticking with count := 4#32 } 0x424#11 0#32))).map
      (fun t => (t.resp, t.count, t.tval)) = some (.error .unmapped, 3#32, 4#32) := by
  decide

/-- T-TB-2, T-ER-10: EN stays 0. -/
theorem test_zero_period :
    (nextOf (step (withTxn idle4 0x500#11 1#32))).map (fun t => (t.resp, t.en)) =
      some (.error .zeroPeriod, false) := by
  decide

/-- T-RS-2, T-RS-3: reset overrides the transaction of its cycle. -/
theorem test_reset_overrides :
    (nextOf (step { running with
      count := 50#32
      inbox := [{ rstN := false, req := .txn 0x504#11 5#32, raw := 0#16 }] })).map
      (fun t => (t.en, t.period, t.count, t.resp)) = some (false, 0#32, 0#32, .none) := by
  decide

/-- 20 R62: a fetch of EVENT clears flags, as a read does. -/
theorem test_fetch_of_event :
    (nextOf (step { running with
      ch := [lane 0 true true, lane 0 false false, lane 0 false false, lane 0 false false]
      inbox := [{ rstN := true, req := .fetch 0b10#2 0x20#8, raw := 0#16 }] })).map
      (fun t => (t.resp, changedVec t, t.faults)) =
      some (.okay 0x00010001#32, 0#16, [.hostFetch 0x420#11]) := by
  decide

/-- 30 R82, R83: CONFIGURE 3 as its two transactions (95 program 1). -/
theorem test_script_configure :
    scriptCycles 0#16 [.raw 1#16, .configure 3#32] =
      [{ rstN := true, req := .txn 0x504#11 3#32, raw := 1#16 },
        { rstN := true, req := .txn 0x500#11 1#32, raw := 1#16 }] := by
  decide

/-- 40 R116: the abstraction admits WR_COUNT-then-Tick, a run the chip lacks. -/
theorem test_tick_model_write_then_tick :
    ((runEvents [.txn 0#32 0x50C#11 100#32, .tick 0#16] (tickView ticking)).1.count,
      (runEvents [.tick 0#16, .txn 0#32 0x50C#11 100#32] (tickView ticking)).1.count) = (99#32, 100#32) := by
  decide

/-- 40 R116, 60 R200: a rejected transaction is an event that answers ERROR and changes nothing. -/
theorem test_tick_model_rejected :
    txnEvent 0#32 0x424#11 0#32 (tickView ticking) = (tickView ticking, .error .unmapped) := by
  decide

/-! ## Witnesses: states and operands that meet the hypotheses of each statement -/

/-- Idle cycles, reset released, with these raw levels. -/
def idleCycles (raws : List Half) : List Cycle := raws.map fun r => { rstN := true, req := .idle, raw := r }

/-- A tick at every edge (PERIOD = 1), COOLDOWN = 1, input 0 high at the next edge and low from then on. -/
def everyEdge : State :=
  { idle4 with en := true, period := 1#32, cooldown := 1#16, inbox := idleCycles [1#16, 0#16, 0#16] }

theorem released_of_empty (k : Nat) {s : State} (h : s.inbox = []) : ResetReleased k s := by
  simp [ResetReleased, h]

theorem noCountWrite_of_empty (k : Nat) {s : State} (h : s.inbox = []) : NoCountWrite k s := by
  simp [NoCountWrite, h]

theorem inv_idle4 : Inv idle4 := ⟨by decide, by decide, by decide, by decide, by decide⟩

theorem inv_running : Inv running := ⟨by decide, by decide, by decide, by decide, by decide⟩

theorem witness_DecodeOfEncodeIsTheTransaction : Instr.wellFormed 16 (.rdDbcnt 15#4) = true := by decide

theorem witness_AcceptedDescriptorIsTheEncoding : decode 4 0x44C#11 0#32 = .op (.rdDbcnt 3#4) := by decide

theorem witness_RegisterAccessDecodesToItsOperation :
    ∀ i, Reg.dbcnt 3#4 = .dbcnt i → i.toNat < 4 := by decide

/-- Both clauses at their boundaries: the last offset, and the addresses just outside the window. -/
theorem witness_HostAccessPresentsItsDescriptor :
    255 < 256 ∧ 0x3FFFFFFF < (params 4 0#16).base ∧ (params 4 0#16).base + 256 ≤ 0x40000100 := by
  decide

theorem witness_StepRunsTheDecodedTransaction :
    ∃ (s : State) (c : Cycle) (rest : List Cycle) (td : TD) (w : Word) (i : Instr),
      s.inbox = c :: rest ∧ c.rstN = true ∧ c.req = .txn td w ∧ decode s.params.n td w = .op i :=
  ⟨withTxn idle4 0x504#11 3#32, _, _, _, _, .wrPeriod 3#32, rfl, rfl, rfl, by decide⟩

theorem witness_RejectedTransactionActsAsIdle :
    ∃ (s : State) (c : Cycle) (rest : List Cycle) (td : TD) (w : Word),
      s.inbox = c :: rest ∧ c.rstN = true ∧ c.req = .txn td w ∧
        decode s.params.n td w = .error .readonly :=
  ⟨withTxn ticking 0x518#11 1#32, _, _, _, _, rfl, rfl, rfl, by decide⟩

theorem witness_IdleCycleOnlyRunsTheClock :
    ∃ (c : Cycle) (rest : List Cycle), everyEdge.inbox = c :: rest ∧ c.rstN = true ∧ c.req = .idle :=
  ⟨_, _, rfl, rfl, rfl⟩

theorem witness_EmptyQueueIsIdleWithFreeLevels : ticking.inbox = [] := rfl

theorem witness_FetchIsPerformedAsARead :
    ∃ (s : State) (c : Cycle) (rest : List Cycle),
      s.inbox = c :: rest ∧ c.req = .fetch 0b10#2 0x20#8 ∧ c.rstN = true :=
  ⟨{ running with inbox := [{ rstN := true, req := .fetch 0b10#2 0x20#8, raw := 0#16 }] }, _, _, rfl, rfl, rfl⟩

/-- Also the witness of EveryErrorIsRecorded and RegistersHaveOnlyTheirWriters: a step that is no reset. -/
theorem witness_EveryEdgeRunsTheChannels :
    (nextCycle everyEdge).rstN = true ∧ ∃ t, step everyEdge = .next t := ⟨rfl, _, rfl⟩

theorem witness_ResetSetsEveryElement :
    (nextCycle { running with inbox := [{ rstN := false, req := .idle, raw := 0#16 }] }).rstN = false := rfl

/-- Both ends of the range of N, for the statements about legal parameters: RD_CFG, RD_STATE, RD_CHANGED,
RD_EVENT and ResetStateMeetsTheInvariant. -/
theorem witness_RdCfgAnswersTheParameters :
    (params 1 0#16).legal = true ∧ (params 16 0xFFFF#16).legal = true := by decide

theorem witness_FlagVectorReadsAnswerEveryLane : running.params.legal = true := by decide

/-- Both clauses at the boundary: index 3 exists, index 4 does not. -/
theorem witness_RdDbcntAnswersTheCooldownCounter :
    (3#4).toNat < running.params.n ∧ running.params.n ≤ (4#4).toNat := by decide

theorem witness_RdEventAnswersAndClears :
    ticking.params.legal = true ∧ ticking.ch.length = ticking.params.n := by decide

/-- The four cases of WR_CTRL: it enables, PERIOD is 0, bit 0 is 0, EN is 1. -/
theorem witness_WrCtrlSetsEnOnce :
    ((1#32).getLsbD 0 = true ∧ ({ idle4 with period := 1#32 } : State).en = false ∧
      ({ idle4 with period := 1#32 } : State).period ≠ 0#32) ∧
    ((1#32).getLsbD 0 = true ∧ idle4.en = false ∧ idle4.period = 0#32) ∧
    (0xFFFFFFFE#32).getLsbD 0 = false ∧ running.en = true := by
  decide

/-- Both cases of the locked registers: stopped and running. -/
theorem witness_WrPeriodStoresWhileStopped : idle4.en = false ∧ running.en = true := by decide

theorem witness_WrCooldownStoresWhileStopped : idle4.en = false ∧ ticking.en = true := by decide

theorem witness_EveryStepKeepsTheInvariant : Inv running ∧ ∃ t, step running = .next t :=
  ⟨inv_running, _, rfl⟩

theorem witness_ParametersNeverChange : ∃ t, after 3 everyEdge = some t := ⟨_, rfl⟩

theorem witness_RegistersHaveOnlyTheirWriters :
    (nextCycle (withTxn idle4 0x504#11 3#32)).rstN = true ∧
      ∃ t, step (withTxn idle4 0x504#11 3#32) = .next t := ⟨rfl, _, rfl⟩

/-- A flag set by a flip, at the edge where input 0 goes high. -/
theorem witness_FlagsAreSetByFlipsAndClearedByEvent_set :
    (nextCycle everyEdge).rstN = true ∧ 0 < everyEdge.ch.length ∧ (everyEdge.chan 0).changed = false ∧
      ∃ t, step everyEdge = .next t ∧ (t.chan 0).changed = true ∧
        (t.chan 0).stable ≠ (everyEdge.chan 0).stable :=
  ⟨rfl, by decide, rfl, _, rfl, by decide, by decide⟩

/-- The last channel with its flag set, and an RD_EVENT. -/
def flaggedLast : State :=
  withTxn { running with
    ch := [lane 0 false false, lane 0 false false, lane 0 false false, lane 9 true true] } 0x420#11 0#32

/-- A flag cleared by RD_EVENT, on the last channel. -/
theorem witness_FlagsAreSetByFlipsAndClearedByEvent_clear :
    (nextCycle flaggedLast).rstN = true ∧ 3 < flaggedLast.ch.length ∧ (flaggedLast.chan 3).changed = true ∧
      ∃ t, step flaggedLast = .next t ∧ (t.chan 3).changed = false :=
  ⟨rfl, by decide, by decide, _, rfl, by decide⟩

theorem witness_RunningBlockStaysArmedAndLocked :
    ResetReleased 2 everyEdge ∧ everyEdge.en = true ∧ ∃ t, after 2 everyEdge = some t :=
  ⟨by unfold ResetReleased; decide, rfl, _, rfl⟩

theorem witness_StoppedBlockNeverTicks :
    Inv idle4 ∧ ResetReleased 2 idle4 ∧ NoCountWrite 2 idle4 ∧
      ∃ t, after 2 idle4 = some t ∧ t.en = false :=
  ⟨inv_idle4, released_of_empty 2 rfl, noCountWrite_of_empty 2 rfl, _, rfl, rfl⟩

/-- At the edge that ticks, TVAL edges from now. -/
theorem witness_TicksComeEveryPeriod :
    Inv running ∧ running.en = true ∧ ResetReleased 3 running ∧ ∃ t, after 3 running = some t :=
  ⟨inv_running, rfl, released_of_empty 3 rfl, _, rfl⟩

theorem witness_CountdownCountsTheTicks :
    ∃ u t, (nextCycle (withTxn ticking 0x50C#11 2#32)).rstN = true ∧
      requestedOp 4 (nextCycle (withTxn ticking 0x50C#11 2#32)).req = some (.wrCount 2#32) ∧
      step (withTxn ticking 0x50C#11 2#32) = .next u ∧
      ResetReleased 1 u ∧ NoCountWrite 1 u ∧ after 1 u = some t :=
  ⟨_, _, rfl, by decide, rfl, released_of_empty 1 rfl, noCountWrite_of_empty 1 rfl, rfl⟩

/-- At the boundary: the first edge from which COUNT reads 0. -/
theorem witness_CountReachesZeroOnTime :
    Inv { running with count := 1#32 } ∧ 1 ≤ ({ running with count := 1#32 } : State).count.toNat ∧
      ResetReleased 4 { running with count := 1#32 } ∧ NoCountWrite 4 { running with count := 1#32 } ∧
      ∃ t, after 4 { running with count := 1#32 } = some t :=
  ⟨⟨by decide, by decide, by decide, by decide, by decide⟩, by decide, released_of_empty 4 rfl,
    noCountWrite_of_empty 4 rfl, _, rfl⟩

/-- Both clauses at the boundary: COOLDOWN ticks after an accepted transition, and another one there. -/
theorem witness_AcceptedTransitionsAreSpaced :
    ∃ u t, (nextCycle everyEdge).rstN = true ∧ 0 < everyEdge.ch.length ∧
      Accepts (beginCycle everyEdge) 0 ∧ step everyEdge = .next u ∧ ResetReleased 1 u ∧
      after 1 u = some t ∧ ticksIn 1 u = everyEdge.cooldown.toNat ∧ Accepts (beginCycle t) 0 :=
  ⟨_, _, rfl, by decide, by unfold Accepts TickAt; decide, rfl, by unfold ResetReleased; decide, rfl,
    by decide, by unfold Accepts TickAt; decide⟩

theorem witness_NoTransitionIsLost :
    ∃ u t, (nextCycle everyEdge).rstN = true ∧ everyEdge.params.legal = true ∧
      0 < everyEdge.ch.length ∧ 0 < everyEdge.params.n ∧ Accepts (beginCycle everyEdge) 0 ∧
      step everyEdge = .next u ∧ ResetReleased 1 u ∧ NoEventRead 1 u ∧ after 1 u = some t :=
  ⟨_, _, rfl, by decide, by decide, by decide, by unfold Accepts TickAt; decide, rfl,
    by unfold ResetReleased; decide, by unfold NoEventRead; decide, rfl⟩

theorem witness_FlagReadsAreIdempotent :
    running.params.legal = true ∧ running.ch.length = running.params.n ∧ (∀ i, ¬ Accepts running i) ∧
      (∃ t, exec .rdChanged running = .next t) ∧ ∃ t, exec .rdEvent running = .next t :=
  ⟨by decide, by decide, fun _ h => absurd h.1.2 (by decide), ⟨_, rfl⟩, _, rfl⟩

/-- Two states that agree on lane 0 and differ on another. -/
theorem witness_LanesDoNotInterfere :
    ∃ s : State, s.ch ≠ running.ch ∧ 0 < s.ch.length ∧ s.chan 0 = running.chan 0 ∧ s.en = running.en ∧
      s.tval = running.tval ∧ s.cooldown = running.cooldown ∧ s.params.n = running.params.n ∧
      s.raw.getLsbD 0 = running.raw.getLsbD 0 ∧
      s.params.polarity.getLsbD 0 = running.params.polarity.getLsbD 0 ∧
      (∃ t, exec .rdEvent s = .next t) ∧ ∃ t, exec .rdEvent running = .next t :=
  ⟨{ running with
      raw := 2#16
      ch := [lane 0 false false, lane 5 true true, lane 0 false false, lane 0 false false] },
    by decide, by decide, by decide, rfl, rfl, rfl, rfl, by decide, rfl, ⟨_, rfl⟩, _, rfl⟩

/-- Each clause of the refinement: a read, a rejected read and a write at a tick, a read at no tick, Idle at a
tick and at none. -/
theorem witness_ClockStepRefinesTickModel :
    (∀ td ∈ [0x420#11, 0x424#11, 0x50C#11],
      (nextCycle (withTxn ticking td 1#32)).req.present = some (td, 1#32) ∧ TickAt (withTxn ticking td 1#32) ∧
        ∃ t, step (withTxn ticking td 1#32) = .next t) ∧
      tdWrite 0x420#11 = false ∧ tdWrite 0x424#11 = false ∧ tdWrite 0x50C#11 = true ∧
      (nextCycle (withTxn running 0x408#11 0#32)).req.present = some (0x408#11, 0#32) ∧
      ¬ TickAt (withTxn running 0x408#11 0#32) ∧
      (nextCycle ticking).req.present = none ∧ TickAt ticking ∧ ¬ TickAt running := by
  refine ⟨?_, rfl, rfl, rfl, rfl, by unfold TickAt; decide, rfl, by unfold TickAt; decide,
    by unfold TickAt; decide⟩
  intro td h
  simp only [List.mem_cons, List.not_mem_nil, or_false] at h
  obtain rfl | rfl | rfl := h <;> exact ⟨rfl, ⟨rfl, rfl⟩, _, rfl⟩

/-- A run of three edges, each of which ticks. -/
theorem witness_EveryRunIsATickModelRun :
    ResetReleased 3 everyEdge ∧ (∃ t, after 3 everyEdge = some t) ∧
      (eventsIn 3 everyEdge).length = 3 :=
  ⟨by unfold ResetReleased; decide, ⟨_, rfl⟩, by decide⟩

theorem witness_EveryErrorIsRecorded : ∃ t, step (withTxn ticking 0x518#11 1#32) = .next t ∧ t.resp = .error .readonly :=
  ⟨_, rfl, by decide⟩

end Sys2Proof.Tests
end

section
/-! PROOFS. The statements about an Idle cycle and about the spacing of accepted transitions
(40_cycle_and_tick.md R112, R113). -/

namespace Sys2Proof.Machine

open Sys2Proof

/-! ## One step that is no reset -/

/-- The channels do not depend on the inputs of the cycle. -/
@[simp] theorem beginCycle_chan (s : State) (i : Nat) : (beginCycle s).chan i = s.chan i := by
  simp [State.chan]

theorem beginCycle_of_cons {s : State} {c : Cycle} {rest : List Cycle} (h : s.inbox = c :: rest) :
    beginCycle s = { s with inbox := rest, raw := c.raw } := by
  simp [beginCycle, h]

theorem nextCycle_of_cons {s : State} {c : Cycle} {rest : List Cycle} (h : s.inbox = c :: rest) :
    nextCycle s = c := by
  simp [nextCycle, h]

/-- With reset released and no request the step is the Idle edge (40 R112). -/
theorem step_of_idle {s : State} (hr : (nextCycle s).rstN = true) (hq : (nextCycle s).req = .idle) :
    step s = .next (idleEdge (beginCycle s)) := by
  simp [step, hr, hq, decodeRequest, Request.present]

/-- Whatever the request, a step that is no reset has the frame common to all edges (10 R38). -/
theorem step_edgeRuns {s u : State} (hr : (nextCycle s).rstN = true) (h : step s = .next u) :
    EdgeRuns (beginCycle s) u := by
  obtain ⟨r, eff, w, fs, rfl, -⟩ := step_edge hr h
  exact (clockEdge_edgeRuns (beginCycle s) r eff w).withFaults fs

theorem step_ch_length {s u : State} (hr : (nextCycle s).rstN = true) (h : step s = .next u) :
    u.ch.length = s.ch.length := by
  simpa using (step_edgeRuns hr h).keeps.lanes

/-- Settles O10: the step is the Idle edge, whose effect is empty. -/
theorem idleCycleOnlyRunsTheClock : Obligations.IdleCycleOnlyRunsTheClock := by
  unfold Obligations.IdleCycleOnlyRunsTheClock
  intro s c rest hs hr hq
  rw [← nextCycle_of_cons hs] at hr hq
  refine ⟨idleEdge (beginCycle s), step_of_idle hr hq, rfl, beginCycle_faults s, ?_⟩
  rw [beginCycle_of_cons hs]
  exact clockEdge_quiet _ .none 0#32

/-! ## A lane in cooldown -/

/-- The edge of an accepted transition starts the cooldown (40 R107). -/
theorem accepts_starts_cooldown {s u : State} {i : Nat} (hr : (nextCycle s).rstN = true)
    (hi : i < s.ch.length) (ha : Accepts (beginCycle s) i) (h : step s = .next u) :
    (u.chan i).dbt = s.cooldown := by
  obtain ⟨htick, hdbt, hlevel⟩ := ha
  simpa using (((step_edgeRuns hr h).laneRuns i (by simpa using hi)).accepts htick hdbt hlevel).1

/-- One edge of a lane whose counter covers its tick, if it has one: the counter goes down with the tick
and the lane does not sample (40 R106). -/
theorem step_cools {s u : State} {i : Nat} (hr : (nextCycle s).rstN = true) (hi : i < s.ch.length)
    (h : step s = .next u) (hcover : (if u.tickO then 1 else 0) ≤ (s.chan i).dbt.toNat) :
    (u.chan i).dbt.toNat = (s.chan i).dbt.toNat - (if u.tickO then 1 else 0) ∧
      (u.chan i).stable = (s.chan i).stable := by
  have hedge := step_edgeRuns hr h
  have hlane := hedge.laneRuns i (by simpa using hi)
  by_cases htick : TickAt (beginCycle s)
  · have hO : u.tickO = true := hedge.keeps.tickO.mpr htick
    rw [if_pos hO] at hcover ⊢
    have hne : (s.chan i).dbt ≠ 0#16 := by bv_omega
    obtain ⟨hdbt, hstable⟩ := hlane.cools htick (by simpa using hne)
    rw [beginCycle_chan] at hdbt hstable
    exact ⟨by rw [hdbt]; bv_omega, hstable⟩
  · have hO : ¬ u.tickO = true := fun hO => htick (hedge.keeps.tickO.mp hO)
    rw [if_neg hO]
    obtain ⟨hdbt, hstable⟩ := hlane.holds htick
    rw [beginCycle_chan] at hdbt hstable
    exact ⟨by rw [hdbt, Nat.sub_zero], hstable⟩

/-- A run with no more ticks than a lane's counter: the counter has gone down by one at each of them and the
lane has not sampled. -/
theorem run_cools {k i : Nat} {s t : State} (hr : ResetReleased k s) (hi : i < s.ch.length)
    (h : after k s = some t) (hcover : ticksIn k s ≤ (s.chan i).dbt.toNat) :
    (t.chan i).dbt.toNat = (s.chan i).dbt.toNat - ticksIn k s ∧ (t.chan i).stable = (s.chan i).stable := by
  induction k generalizing s with
  | zero =>
    obtain rfl : s = t := by simpa [after] using h
    simp [ticksIn]
  | succ k ih =>
    obtain ⟨u, hu, ht⟩ := after_succ.mp h
    rw [ticksIn_succ hu] at hcover ⊢
    obtain ⟨hdbt, hstable⟩ := step_cools hr.head hi hu (by omega)
    obtain ⟨hdbt', hstable'⟩ :=
      ih (hr.tail hu) (by rw [step_ch_length hr.head hu]; exact hi) ht (by omega)
    exact ⟨by omega, hstable'.trans hstable⟩

/-- Settles O37: the accepting edge starts the cooldown, and the run after it counts it down. A lane that
accepts again has its counter at 0, so it has seen COOLDOWN ticks. -/
theorem acceptedTransitionsAreSpaced : Obligations.AcceptedTransitionsAreSpaced := by
  unfold Obligations.AcceptedTransitionsAreSpaced
  intro k i s u t hr hi ha hu hrel ht
  have hstart : (u.chan i).dbt = s.cooldown := accepts_starts_cooldown hr hi ha hu
  have hcools : ticksIn k u ≤ s.cooldown.toNat →
      (t.chan i).dbt.toNat = s.cooldown.toNat - ticksIn k u ∧ (t.chan i).stable = (u.chan i).stable := by
    rw [← hstart]
    exact run_cools hrel (by rw [step_ch_length hr hu]; exact hi) ht
  refine ⟨hcools, fun ⟨_, hzero, _⟩ => ?_⟩
  by_contra hfew
  have hdbt := (hcools (by omega)).1
  rw [beginCycle_chan] at hzero
  rw [hzero, BitVec.toNat_ofNat] at hdbt
  omega

end Sys2Proof.Machine
end

section
/-! PROOFS. The descriptor of a register access (30_encoding.md R70, R72, R77). -/

namespace Sys2Proof

/-! ## The fields of a packed descriptor -/

@[simp] theorem tdSize_packTD (size : BitVec 2) (write : Bool) (off : Offset) :
    tdSize (packTD size write off) = size :=
  BitVec.extractLsb'_append_eq_left

@[simp] theorem tdWrite_packTD (size : BitVec 2) (write : Bool) (off : Offset) :
    tdWrite (packTD size write off) = write := by
  unfold tdWrite packTD
  rw [BitVec.getLsbD_append, BitVec.getLsbD_append]
  simp

@[simp] theorem tdOffset_packTD (size : BitVec 2) (write : Bool) (off : Offset) :
    tdOffset (packTD size write off) = off := by
  apply BitVec.eq_of_getLsbD_eq
  intro i hi
  unfold tdOffset packTD
  rw [BitVec.getLsbD_extractLsb', BitVec.getLsbD_append, BitVec.getLsbD_append]
  simp [hi]
  omega

/-! ## An access to a register of the map -/

/-- Every register stands at a word boundary (30 R74). -/
theorem offsetOf_aligned (r : Reg) : (offsetOf r).extractLsb' 0 2 = 0b00#2 := by
  cases r with
  | dbcnt i => revert i; decide
  | ctrl | period | tval | count | cooldown | cfg | state | changed | event => rfl

/-- A word access to a register that the block has decodes to the register's read or write operation. -/
theorem decode_packTD_offsetOf {n : Nat} {r : Reg} (hr : regAt n (offsetOf r) = some r)
    (write : Bool) (wdata : Word) :
    decode n (packTD wordSize write (offsetOf r)) wdata =
      if write then writeOp wdata r else .op (readOp r) := by
  simp [decode, offsetOf_aligned, hr]

end Sys2Proof
end

section
/-! PROOFS. The statements about the timebase registers CTRL, PERIOD, TVAL and COUNT (41_timebase.md). -/

namespace Sys2Proof.Machine

open Sys2Proof

/-- A transaction that `perform` accepts is the clock edge with its effect and its data word (40 R100). -/
theorem exec_of_done {i : Instr} {s : State} {rdata : Word} {eff : Effect}
    (h : performInstr i s = .done rdata eff) :
    exec i s = .next (clockEdge s (.okay rdata) eff (encode i).2) := by
  rw [exec_eq_finish, h]
  rfl

/-- A block with EN = 0 does not tick (40 R101). -/
theorem not_tickAt_of_stopped {s : State} (hen : s.en = false) : ¬ TickAt s := by
  simp [TickAt, hen]

/-! ## What `perform` gives, one equation for each case of a rule -/

/-- CTRL has EN in bit 0 and 0 above (41 R131). -/
theorem ctrlWord_eq (s : State) : ctrlWord s = if s.en then 1#32 else 0#32 := by
  unfold ctrlWord
  cases s.en <;> rfl

section WrCtrl

variable {s : State} {wdata : Word}

theorem perform_wrCtrl_enables (hbit : wdata.getLsbD 0 = true) (hen : s.en = false)
    (hperiod : s.period ≠ 0#32) :
    performInstr (.wrCtrl wdata) s = .done 0#32 { noEffect with setEN := true } := by
  simp only [performInstr, performWrCtrl, ctrlRequestsEnable]
  rw [if_pos ⟨hbit, hen⟩, if_neg hperiod]

theorem perform_wrCtrl_zeroPeriod (hbit : wdata.getLsbD 0 = true) (hen : s.en = false)
    (hperiod : s.period = 0#32) : performInstr (.wrCtrl wdata) s = .raise .zeroPeriod := by
  simp only [performInstr, performWrCtrl, ctrlRequestsEnable]
  rw [if_pos ⟨hbit, hen⟩, if_pos hperiod]

/-- Writing 0, and writing 1 to a running block, does nothing. -/
theorem perform_wrCtrl_ignored (h : wdata.getLsbD 0 = false ∨ s.en = true) :
    performInstr (.wrCtrl wdata) s = .done 0#32 noEffect := by
  simp only [performInstr, performWrCtrl, ctrlRequestsEnable]
  refine if_neg fun ⟨hbit, hen⟩ => ?_
  obtain hclear | hrun := h
  · exact Bool.eq_false_iff.mp hclear hbit
  · exact Bool.eq_false_iff.mp hen hrun

end WrCtrl

section WrPeriod

variable {s : State} (wdata : Word)

theorem perform_wrPeriod_stopped (hen : s.en = false) :
    performInstr (.wrPeriod wdata) s = .done 0#32 { noEffect with wrPERIOD := true } := by
  simp [performInstr, performWrPeriod, hen]

theorem perform_wrPeriod_locked (hen : s.en = true) :
    performInstr (.wrPeriod wdata) s = .raise .locked := by
  simp [performInstr, performWrPeriod, hen]

end WrPeriod

/-! ## The obligations -/

/-- Settles O18: the four reads have no effect, and TVAL has no write operation. -/
theorem timebaseReadsAnswerTheirRegister : Obligations.TimebaseReadsAnswerTheirRegister := by
  unfold Obligations.TimebaseReadsAnswerTheirRegister
  intro s
  refine ⟨?_, answersQuietly_of_perform rfl, answersQuietly_of_perform rfl,
    answersQuietly_of_perform rfl, fun n wdata => ?_⟩
  · rw [← ctrlWord_eq]
    exact answersQuietly_of_perform rfl
  · exact ⟨decode_packTD_offsetOf (r := .ctrl) rfl false wdata,
      decode_packTD_offsetOf (r := .period) rfl false wdata,
      decode_packTD_offsetOf (r := .tval) rfl false wdata,
      decode_packTD_offsetOf (r := .count) rfl false wdata,
      decode_packTD_offsetOf (r := .tval) rfl true wdata⟩

/-- Settles O24: the edge that sets EN comes while EN is 0, so it does not tick and COUNT is kept. -/
theorem wrCtrlSetsEnOnce : Obligations.WrCtrlSetsEnOnce := by
  unfold Obligations.WrCtrlSetsEnOnce
  intro s wdata
  refine ⟨fun hbit hen hperiod => ?_,
    fun hbit hen hperiod => errorsQuietly_of_perform (perform_wrCtrl_zeroPeriod hbit hen hperiod),
    fun h => answersQuietly_of_perform (perform_wrCtrl_ignored h),
    fun n => decode_packTD_offsetOf (r := .ctrl) rfl true wdata⟩
  have hstill := not_tickAt_of_stopped hen
  have hcount := (clockEdge_countdown s (.okay 0#32) { noEffect with setEN := true } wdata rfl).holds hstill
  have htick : tickDue s = false := by simpa [← tickDue_iff] using hstill
  exact ⟨_, exec_of_done (perform_wrCtrl_enables hbit hen hperiod), rfl, rfl, rfl, rfl, hcount, rfl, rfl,
    htick, clockEdge_edgeRuns _ _ _ _, clockEdge_flagsKept _ _ _ _ rfl⟩

/-- Settles O25: while EN is 0 the one effect is the write of PERIOD; while EN is 1 `perform` raises
LOCKED. -/
theorem wrPeriodStoresWhileStopped : Obligations.WrPeriodStoresWhileStopped := by
  unfold Obligations.WrPeriodStoresWhileStopped
  intro s wdata
  refine ⟨fun hen => ?_, fun hen => errorsQuietly_of_perform (perform_wrPeriod_locked wdata hen),
    fun n => decode_packTD_offsetOf (r := .period) rfl true wdata⟩
  exact ⟨_, exec_of_done (perform_wrPeriod_stopped wdata hen), rfl, rfl, rfl, rfl, rfl,
    clockEdge_edgeRuns _ _ _ _, clockEdge_flagsKept _ _ _ _ rfl, clockEdge_prescaler _ _ _ _ rfl,
    clockEdge_countdown _ _ _ _ rfl⟩

/-- Settles O26: in the merge the data word takes the place of the tick's COUNT (40 R111 case 1), and the
frame of the edge holds with this effect as with any. -/
theorem wrCountWinsOverTheTick : Obligations.WrCountWinsOverTheTick := by
  unfold Obligations.WrCountWinsOverTheTick
  intro s wdata
  refine ⟨?_, fun n => decode_packTD_offsetOf (r := .count) rfl true wdata⟩
  have hperform : performInstr (.wrCount wdata) s = .done 0#32 { noEffect with wrCOUNT := true } := rfl
  exact ⟨_, exec_of_done hperform, rfl, rfl, rfl, rfl, rfl, rfl, clockEdge_edgeRuns _ _ _ _,
    clockEdge_flagsKept _ _ _ _ rfl, clockEdge_prescaler _ _ _ _ rfl⟩

end Sys2Proof.Machine
end

section
/-! PROOFS. The statements about the debounce registers COOLDOWN, CFG and STATE (42_debounce.md) and the plain
read of the changed flags (43_change_channel.md R171). -/

namespace Sys2Proof.Machine

open Sys2Proof

/-! ## The words that are read -/

/-- A block has at most 16 channels (00 R9). -/
theorem le_sixteen_of_legal {p : Params} (h : p.legal = true) : p.n ≤ 16 := by
  simp only [Params.legal, Bool.and_eq_true, decide_eq_true_eq] at h
  obtain ⟨⟨⟨-, hn⟩, -⟩, -⟩ := h
  exact hn

/-- Reserved bits above a field read 0, so the word has the field's value (30 R76). -/
theorem toNat_zero_append (m : Nat) {k : Nat} (v : BitVec k) : (0#m ++ v).toNat = v.toNat := by
  rw [BitVec.toNat_append]
  simp

theorem getLsbD_zero_append (m : Nat) {k : Nat} (v : BitVec k) (j : Nat) :
    (0#m ++ v).getLsbD j = v.getLsbD j := by
  rw [BitVec.getLsbD, BitVec.getLsbD, toNat_zero_append]

theorem cooldownWord_toNat (s : State) : (cooldownWord s).toNat = s.cooldown.toNat :=
  toNat_zero_append 16 s.cooldown

theorem getLsbD_laneMask (n j : Nat) : (laneMask n).getLsbD j = true ↔ j < 16 ∧ j < n := by
  simp [laneMask, BitVec.getLsbD_ofNat, Nat.testBit_two_pow_sub_one]

/-- N is in the low half of CFG: it fits in 5 bits (42 R153). -/
theorem cfgWord_lowHalf {p : Params} (hn : p.n ≤ 16) : (cfgWord p).toNat % 65536 = p.n := by
  have hfield : (0#11 ++ BitVec.ofNat 5 p.n : Half).toNat = p.n := by
    rw [toNat_zero_append, BitVec.toNat_ofNat]
    omega
  have hlow : (cfgWord p).toNat % 2 ^ 16 = (0#11 ++ BitVec.ofNat 5 p.n : Half).toNat := by
    rw [← BitVec.toNat_setWidth]
    exact congrArg BitVec.toNat BitVec.setWidth_append_eq_right
  exact hlow.trans hfield

/-- The high half of CFG is POLARITY below N (42 R153). -/
theorem getLsbD_cfgWord_highHalf (p : Params) {j : Nat} (hj : j < 16) :
    (cfgWord p).getLsbD (16 + j) = true ↔ j < p.n ∧ p.polarity.getLsbD j = true := by
  unfold cfgWord
  rw [BitVec.getLsbD_append, if_neg (by omega), Nat.add_sub_cancel_left, BitVec.getLsbD_and, Bool.and_eq_true,
    getLsbD_laneMask]
  tauto

/-- Bit j of a flag's vector is the flag of lane j. A lane that does not exist reads as at rest, where the
flag is clear (42 R156). -/
theorem getLsbD_laneVec_chan {s : State} {f : Channel → Bool} (hn : s.params.n ≤ 16)
    (hrest : f Channel.rest = false) (j : Nat) :
    (laneVec s.params.n f s.ch).getLsbD j = true ↔ j < s.params.n ∧ f (s.chan j) = true := by
  rw [getLsbD_laneVec, Bool.and_eq_true, decide_eq_true_eq]
  change _ ∧ f (s.chan j) = true ↔ _
  constructor
  · rintro ⟨⟨-, hj, -⟩, hflag⟩
    exact ⟨hj, hflag⟩
  · rintro ⟨hj, hflag⟩
    refine ⟨⟨by omega, hj, ?_⟩, hflag⟩
    by_contra hlen
    simp [State.chan, List.getD, hlen, hrest] at hflag

/-- STATE and CHANGED, as words of a flag's vector (42 R154, 43 R171). -/
theorem getLsbD_flagWord {s : State} {f : Channel → Bool} (hn : s.params.n ≤ 16)
    (hrest : f Channel.rest = false) (j : Nat) :
    (0#16 ++ laneVec s.params.n f s.ch).getLsbD j = true ↔ j < s.params.n ∧ f (s.chan j) = true := by
  rw [getLsbD_zero_append, getLsbD_laneVec_chan hn hrest]

/-! ## The case split of WR_COOLDOWN -/

section WrCooldown

variable {s : State} (wdata : Word)

theorem perform_wrCooldown_stopped (hen : s.en = false) :
    performInstr (.wrCooldown wdata) s = .done 0#32 { noEffect with wrCOOLDOWN := true } := by
  simp [performInstr, performWrCooldown, hen]

theorem perform_wrCooldown_locked (hen : s.en = true) :
    performInstr (.wrCooldown wdata) s = .raise .locked := by
  simp [performInstr, performWrCooldown, hen]

/-- The upper half of the data word is ignored (30 R75). -/
theorem cooldownData_toNat : (cooldownData wdata).toNat = wdata.toNat % 65536 := by
  simp [cooldownData]

end WrCooldown

/-! ## The obligations -/

/-- Settles O19: the read has no effect, and COOLDOWN is zero-extended. -/
theorem rdCooldownAnswersCooldown : Obligations.RdCooldownAnswersCooldown := by
  unfold Obligations.RdCooldownAnswersCooldown
  intro s
  exact ⟨cooldownWord s, answersQuietly_of_perform rfl, cooldownWord_toNat s,
    fun n wdata => decode_packTD_offsetOf (r := .cooldown) rfl false wdata⟩

/-- Settles O20: the read has no effect, and the two halves of CFG are N and the masked POLARITY. -/
theorem rdCfgAnswersTheParameters : Obligations.RdCfgAnswersTheParameters := by
  unfold Obligations.RdCfgAnswersTheParameters
  intro s hlegal
  refine ⟨cfgWord s.params, answersQuietly_of_perform rfl, cfgWord_lowHalf (le_sixteen_of_legal hlegal),
    fun j hj => getLsbD_cfgWord_highHalf s.params hj, fun n wdata => ?_⟩
  exact ⟨decode_packTD_offsetOf (r := .cfg) rfl false wdata, decode_packTD_offsetOf (r := .cfg) rfl true wdata⟩

/-- Settles O21: both reads have no effect and answer a lane vector, in which a channel at rest is 0. -/
theorem flagVectorReadsAnswerEveryLane : Obligations.FlagVectorReadsAnswerEveryLane := by
  unfold Obligations.FlagVectorReadsAnswerEveryLane
  intro s hlegal
  have hn := le_sixteen_of_legal hlegal
  refine ⟨⟨stateWord s, answersQuietly_of_perform rfl, fun j => getLsbD_flagWord hn rfl j⟩,
    ⟨changedWord s, answersQuietly_of_perform rfl, fun j => getLsbD_flagWord hn rfl j⟩, fun n wdata => ?_⟩
  exact ⟨decode_packTD_offsetOf (r := .state) rfl false wdata,
    decode_packTD_offsetOf (r := .changed) rfl false wdata,
    decode_packTD_offsetOf (r := .state) rfl true wdata,
    decode_packTD_offsetOf (r := .changed) rfl true wdata⟩

/-- Settles O27: while EN is 0 the one effect is the write of COOLDOWN, which the merge makes from the low
half of the data word; while EN is 1 `perform` raises LOCKED. -/
theorem wrCooldownStoresWhileStopped : Obligations.WrCooldownStoresWhileStopped := by
  unfold Obligations.WrCooldownStoresWhileStopped
  intro s wdata
  refine ⟨fun hen => ?_, fun hen => errorsQuietly_of_perform (perform_wrCooldown_locked wdata hen),
    fun n => decode_packTD_offsetOf (r := .cooldown) rfl true wdata⟩
  exact ⟨_, exec_of_done (perform_wrCooldown_stopped wdata hen), rfl, cooldownData_toNat wdata, rfl, rfl, rfl,
    clockEdge_edgeRuns _ _ _ _, clockEdge_flagsKept _ _ _ _ rfl, clockEdge_prescaler _ _ _ _ rfl,
    clockEdge_countdown _ _ _ _ rfl⟩

end Sys2Proof.Machine
end

section
/-! PROOFS. The statement about the read that clears, RD_EVENT (43_change_channel.md R172). -/

namespace Sys2Proof.Machine

open Sys2Proof

/-! ## The word that is read -/

/-- The high half of EVENT is the changed flags (43 R172). -/
theorem getLsbD_eventWord_highHalf {s : State} (hn : s.params.n ≤ 16) (j : Nat) :
    (eventWord s).getLsbD (16 + j) = true ↔ j < s.params.n ∧ (s.chan j).changed = true := by
  unfold eventWord
  rw [BitVec.getLsbD_append, if_neg (by omega), Nat.add_sub_cancel_left]
  exact getLsbD_laneVec_chan hn rfl j

/-- The low half of EVENT is the stable states (43 R172). -/
theorem getLsbD_eventWord_lowHalf {s : State} (hn : s.params.n ≤ 16) {j : Nat} (hj : j < 16) :
    (eventWord s).getLsbD j = true ↔ j < s.params.n ∧ (s.chan j).stable = true := by
  unfold eventWord
  rw [BitVec.getLsbD_append, if_pos hj]
  exact getLsbD_laneVec_chan hn rfl j

/-! ## The flags that are cleared -/

/-- An edge that clears the flags that stand before it leaves exactly those that it sets: the cleared bit of a
lane is its flag, so no old flag is kept, and a tick's set wins over the clear (40 R111). -/
theorem clockEdge_changed_of_clr {s : State} (hn : s.params.n ≤ 16) (r : Response) {eff : Effect}
    (wdata : Word) (hclr : eff.clr = changedVec s) {j : Nat} (hj : j < s.params.n) (hlane : j < s.ch.length) :
    ((clockEdge s r eff wdata).chan j).changed = true ↔ Accepts s j := by
  have hbit : (changedVec s).getLsbD j = true ↔ j < s.params.n ∧ (s.chan j).changed = true :=
    getLsbD_laneVec_chan hn rfl j
  have hnotKept : ¬ ((s.chan j).changed = true ∧ eff.clr.getLsbD j = false) := by
    rintro ⟨hflag, hclear⟩
    rw [hclr] at hclear
    exact Bool.eq_false_iff.mp hclear (hbit.mpr ⟨hj, hflag⟩)
  rw [clockEdge_changed s r eff wdata hlane]
  exact or_iff_right hnotKept

/-! ## The obligation -/

/-- Settles O23: `perform` reads both vectors from the state before the edge, and its one effect clears the
flags that it read. -/
theorem rdEventAnswersAndClears : Obligations.RdEventAnswersAndClears := by
  unfold Obligations.RdEventAnswersAndClears
  intro s hlegal hlanes
  have hn := le_sixteen_of_legal hlegal
  have hperform : performInstr .rdEvent s = .done (eventWord s) { noEffect with clr := changedVec s } := rfl
  exact ⟨_, eventWord s, exec_of_done hperform, rfl,
    fun j _ => getLsbD_eventWord_highHalf hn j,
    fun j hj => getLsbD_eventWord_lowHalf hn hj,
    fun j hj => clockEdge_changed_of_clr hn _ _ rfl hj (hlanes ▸ hj),
    clockEdge_edgeRuns _ _ _ _, clockEdge_prescaler _ _ _ _ rfl, clockEdge_countdown _ _ _ _ rfl,
    rfl, rfl, rfl, rfl,
    fun n wdata => ⟨decode_packTD_offsetOf (r := .event) rfl false wdata,
      decode_packTD_offsetOf (r := .event) rfl true wdata⟩⟩

end Sys2Proof.Machine
end

section
/-! PROOFS. The statement about reset (70_reset_and_hazards.md R231, 10_state.md R37). -/

namespace Sys2Proof.Machine

open Sys2Proof

/-- With reset asserted the step is the Reset step, whatever the request (70 R230). -/
theorem step_of_reset {s : State} (hr : (nextCycle s).rstN = false) :
    step s = .next (resetEdge (beginCycle s)) :=
  if_pos hr

/-- The Reset step takes COOLDOWN's reset value, the parameters and the number of channels from the state; these
do not depend on the inputs of the cycle. -/
theorem resetEdge_beginCycle_of_params (s : State) :
    (resetEdge (beginCycle s)).cooldown = s.params.cooldownReset ∧
    (resetEdge (beginCycle s)).params = s.params ∧
    (resetEdge (beginCycle s)).ch = List.replicate s.params.n Channel.rest := by
  simp only [resetEdge_cooldown, resetEdge_params, resetEdge_ch, beginCycle_params, and_self]

/-- Settles O15: with `rst_n` low the step is the Reset step, which writes every element. -/
theorem resetSetsEveryElement : Obligations.ResetSetsEveryElement := by
  unfold Obligations.ResetSetsEveryElement
  intro s hr
  obtain ⟨hcooldown, hparams, hch⟩ := resetEdge_beginCycle_of_params s
  exact ⟨_, step_of_reset hr, resetEdge_en _, resetEdge_period _, resetEdge_tval _, resetEdge_count _,
    hcooldown, hparams, hch, resetEdge_tickO _, resetEdge_resp _⟩

end Sys2Proof.Machine
end

section
/-! PROOFS. The statements about the decoder and the encoder, and about the host's side of the bus
(30_encoding.md; 20_memory.md R50, R51). -/

namespace Sys2Proof

open Sys2Proof.Machine

/-! ## The register map -/

/-- The registers that a block with n channels has: a DBCNT slot needs an index below n (30 R78). -/
def Reg.inBlock (n : Nat) : Reg → Prop
  | .dbcnt i => i.toNat < n
  | _ => True

/-- The DBCNT slots stand at 0x40 + 4i (30 R78). -/
theorem offsetOf_dbcnt_toNat (i : BitVec 4) : (offsetOf (.dbcnt i)).toNat = 0x40 + 4 * i.toNat := by
  revert i
  decide

/-- The fields by which the map knows a DBCNT slot. -/
theorem offsetOf_dbcnt_fields (i : BitVec 4) :
    (offsetOf (.dbcnt i)).extractLsb' 6 2 = 0b01#2 ∧ (offsetOf (.dbcnt i)).extractLsb' 2 4 = i := by
  revert i
  decide

/-- No DBCNT slot stands below 0x40, where the other registers are. -/
theorem offsetOf_dbcnt_ne {i : BitVec 4} {off : Offset} (h : off.toNat < 0x40) : offsetOf (.dbcnt i) ≠ off := by
  have hval := offsetOf_dbcnt_toNat i
  rintro rfl
  omega

/-- An aligned offset of the DBCNT range is that of the slot its index field names (30 R78). -/
theorem offsetOf_dbcnt_of_range {off : Offset} (halign : off.extractLsb' 0 2 = 0b00#2)
    (hrange : off.extractLsb' 6 2 = 0b01#2) : offsetOf (.dbcnt (off.extractLsb' 2 4)) = off := by
  have hlow := congrArg BitVec.toNat halign
  have hhigh := congrArg BitVec.toNat hrange
  simp only [BitVec.extractLsb'_toNat, Nat.shiftRight_eq_div_pow, BitVec.toNat_ofNat] at hlow hhigh
  apply BitVec.eq_of_toNat_eq
  rw [offsetOf_dbcnt_toNat, BitVec.extractLsb'_toNat, Nat.shiftRight_eq_div_pow]
  omega

/-- The map read at a register's offset gives the register. -/
theorem regAt_offsetOf {n : Nat} {r : Reg} (hr : r.inBlock n) : regAt n (offsetOf r) = some r := by
  cases r with
  | dbcnt i =>
    obtain ⟨hrange, hindex⟩ := offsetOf_dbcnt_fields i
    have hlow : ∀ off ∈ [0x00#8, 0x04#8, 0x08#8, 0x0C#8, 0x10#8, 0x14#8, 0x18#8, 0x1C#8, 0x20#8],
        offsetOf (.dbcnt i) ≠ off := by
      intro off hoff
      refine offsetOf_dbcnt_ne ?_
      revert off
      decide
    simp only [List.forall_mem_cons] at hlow
    have hi : i.toNat < n := hr
    simp [regAt, hlow, hrange, hindex, hi]
  | ctrl | period | tval | count | cooldown | cfg | state | changed | event => rfl

/-- A register that the map gives at an aligned offset is one of the block, and stands there. -/
theorem regAt_eq_some {n : Nat} {off : Offset} {r : Reg} (halign : off.extractLsb' 0 2 = 0b00#2)
    (h : regAt n off = some r) : r.inBlock n ∧ offsetOf r = off := by
  unfold regAt at h
  iterate 9
    obtain ⟨hoff, hreg⟩ | ⟨-, h⟩ := ite_eq_iff.mp h
    · exact Option.some.inj hreg ▸ ⟨trivial, hoff.symm⟩
  obtain ⟨⟨hrange, hindex⟩, hreg⟩ | ⟨-, hnone⟩ := ite_eq_iff.mp h
  · exact Option.some.inj hreg ▸ ⟨hindex, offsetOf_dbcnt_of_range halign hrange⟩
  · contradiction

/-- The mapped offsets, as numbers, are those of the block's registers (30 R74). -/
theorem mappedOffset_iff {n m : Nat} : MappedOffset n m ↔ ∃ r : Reg, r.inBlock n ∧ (offsetOf r).toNat = m := by
  constructor
  · rintro (hlow | ⟨i, h16, hn, rfl⟩)
    · simp only [List.mem_cons, List.not_mem_nil, or_false] at hlow
      obtain rfl | rfl | rfl | rfl | rfl | rfl | rfl | rfl | rfl := hlow
      · exact ⟨.ctrl, trivial, rfl⟩
      · exact ⟨.period, trivial, rfl⟩
      · exact ⟨.tval, trivial, rfl⟩
      · exact ⟨.count, trivial, rfl⟩
      · exact ⟨.cooldown, trivial, rfl⟩
      · exact ⟨.cfg, trivial, rfl⟩
      · exact ⟨.state, trivial, rfl⟩
      · exact ⟨.changed, trivial, rfl⟩
      · exact ⟨.event, trivial, rfl⟩
    · have hi : (BitVec.ofNat 4 i).toNat = i := Nat.mod_eq_of_lt h16
      refine ⟨.dbcnt (BitVec.ofNat 4 i), ?_, ?_⟩
      · simpa only [Reg.inBlock, hi] using hn
      · rw [offsetOf_dbcnt_toNat, hi]
  · rintro ⟨r, hr, rfl⟩
    cases r with
    | dbcnt i => exact .inr ⟨i.toNat, i.isLt, hr, offsetOf_dbcnt_toNat i⟩
    | ctrl | period | tval | count | cooldown | cfg | state | changed | event => exact .inl (by decide)

/-- At an aligned offset the map is empty exactly where the offset is not mapped. -/
theorem regAt_eq_none_iff {n : Nat} {off : Offset} (halign : off.extractLsb' 0 2 = 0b00#2) :
    regAt n off = none ↔ ¬ MappedOffset n off.toNat := by
  rw [mappedOffset_iff]
  constructor
  · rintro hnone ⟨r, hr, hoff⟩
    rw [← BitVec.eq_of_toNat_eq hoff, regAt_offsetOf hr] at hnone
    contradiction
  · intro hunmapped
    cases hreg : regAt n off with
    | none => rfl
    | some r =>
      obtain ⟨hr, rfl⟩ := regAt_eq_some halign hreg
      exact absurd ⟨r, hr, rfl⟩ hunmapped

/-! ## The fields of a descriptor, as numbers -/

theorem tdSize_eq_wordSize_iff (td : TD) : tdSize td = wordSize ↔ td.toNat / 512 = 2 := by
  rw [← BitVec.toNat_inj]
  simp only [tdSize, wordSize, BitVec.extractLsb'_toNat, Nat.shiftRight_eq_div_pow, BitVec.toNat_ofNat]
  omega

theorem tdOffset_toNat (td : TD) : (tdOffset td).toNat = td.toNat % 256 := by
  simp [tdOffset]

theorem tdOffset_aligned_iff (td : TD) : (tdOffset td).extractLsb' 0 2 = 0b00#2 ↔ td.toNat % 4 = 0 := by
  rw [← BitVec.toNat_inj]
  simp [tdOffset_toNat]

theorem tdWrite_iff (td : TD) : tdWrite td = true ↔ td.toNat / 256 % 2 = 1 := by
  simp [tdWrite, BitVec.getLsbD, Nat.testBit, Nat.shiftRight_eq_div_pow]

/-- A descriptor is its three fields, and nothing else (30 R70). -/
theorem packTD_fields (td : TD) : packTD (tdSize td) (tdWrite td) (tdOffset td) = td := by
  apply BitVec.eq_of_getLsbD_eq
  intro j hj
  unfold packTD tdSize tdWrite tdOffset
  simp only [BitVec.getLsbD_append, BitVec.getLsbD_extractLsb', BitVec.getLsbD_ofBool]
  split_ifs with hlow hoff
  · simp [hoff]
  · simp [show j = 8 by omega]
  · simp [show j ≤ 10 by omega, show 9 + (j - 9) = j by omega]

/-! ## Decoding -/

section Decode

variable {n : Nat} {td : TD} {wdata : Word}

theorem decode_of_size (h : tdSize td ≠ wordSize) : decode n td wdata = .error .size := if_pos h

theorem decode_of_align (hsize : tdSize td = wordSize) (h : (tdOffset td).extractLsb' 0 2 ≠ 0b00#2) :
    decode n td wdata = .error .align := by
  simp [decode, hsize, h]

theorem decode_of_regAt_none (hsize : tdSize td = wordSize) (halign : (tdOffset td).extractLsb' 0 2 = 0b00#2)
    (h : regAt n (tdOffset td) = none) : decode n td wdata = .error .unmapped := by
  simp [decode, hsize, halign, h]

theorem decode_of_regAt_some {r : Reg} (hsize : tdSize td = wordSize)
    (halign : (tdOffset td).extractLsb' 0 2 = 0b00#2) (h : regAt n (tdOffset td) = some r) :
    decode n td wdata = if tdWrite td then writeOp wdata r else .op (readOp r) := by
  simp [decode, hsize, halign, h]

/-- What the decoder passes on is a word access to a register of the block. -/
theorem decode_eq_op {i : Instr} (h : decode n td wdata = .op i) :
    ∃ r : Reg, r.inBlock n ∧ td = packTD wordSize (tdWrite td) (offsetOf r) ∧
      (if tdWrite td then writeOp wdata r else .op (readOp r)) = .op i := by
  by_cases hsize : tdSize td = wordSize
  · by_cases halign : (tdOffset td).extractLsb' 0 2 = 0b00#2
    · cases hreg : regAt n (tdOffset td) with
      | none => simp [decode_of_regAt_none hsize halign hreg] at h
      | some r =>
        obtain ⟨hr, hoff⟩ := regAt_eq_some halign hreg
        refine ⟨r, hr, ?_, decode_of_regAt_some hsize halign hreg ▸ h⟩
        rw [hoff, ← hsize, packTD_fields]
    · simp [decode_of_align hsize halign] at h
  · simp [decode_of_size hsize] at h

end Decode

/-! ## Encoding -/

/-- The register that a transaction accesses (30 R72). -/
def Instr.reg : Instr → Reg
  | .rdCtrl | .wrCtrl _ => .ctrl
  | .rdPeriod | .wrPeriod _ => .period
  | .rdTval => .tval
  | .rdCount | .wrCount _ => .count
  | .rdCooldown | .wrCooldown _ => .cooldown
  | .rdCfg => .cfg
  | .rdState => .state
  | .rdDbcnt i => .dbcnt i
  | .rdChanged => .changed
  | .rdEvent => .event

/-- A transaction is well formed exactly where the block has its register. -/
theorem wellFormed_iff {n : Nat} {i : Instr} : i.wellFormed n = true ↔ i.reg.inBlock n := by
  cases i <;> simp [Instr.wellFormed, Instr.reg, Reg.inBlock]

/-- The table's descriptor is the word access to the transaction's register (30 R79). -/
theorem encode_fst (i : Instr) : (encode i).1 = packTD wordSize i.isWrite (offsetOf i.reg) := by
  cases i with
  | rdDbcnt j => revert j; decide
  | rdCtrl | rdPeriod | rdTval | rdCount | rdCooldown | rdCfg | rdState | rdChanged | rdEvent => rfl
  | wrCtrl w | wrPeriod w | wrCount w | wrCooldown w =>
    simp only [encode, Instr.isWrite, Instr.reg, offsetOf]
    decide

/-- A transaction is the read or the write operation of its register. -/
theorem access_reg (i : Instr) :
    (if i.isWrite then writeOp (encode i).2 i.reg else .op (readOp i.reg)) = .op i := by
  cases i <;> rfl

/-- A register's read operation is a read of that register. -/
theorem readOp_fields (r : Reg) : (readOp r).isWrite = false ∧ (readOp r).reg = r := by
  cases r <;> exact ⟨rfl, rfl⟩

/-- A register's write operation is a write of that register and of the data word. -/
theorem writeOp_eq_op {r : Reg} {wdata : Word} {i : Instr} (h : writeOp wdata r = .op i) :
    i.isWrite = true ∧ i.reg = r ∧ (encode i).2 = wdata := by
  cases r <;> simp only [writeOp, Decoded.op.injEq, reduceCtorEq] at h <;> subst h <;> exact ⟨rfl, rfl, rfl⟩

/-- A register has no write operation exactly where its offset is none of the four of the writable ones. -/
theorem writeOp_cases (wdata : Word) (r : Reg) :
    ((offsetOf r).toNat ∈ [0x00, 0x04, 0x0C, 0x10] ∧ ∃ i, writeOp wdata r = .op i) ∨
      ((offsetOf r).toNat ∉ [0x00, 0x04, 0x0C, 0x10] ∧ writeOp wdata r = .error .readonly) := by
  cases r with
  | ctrl | period | count | cooldown => exact .inl ⟨by decide, _, rfl⟩
  | tval | cfg | state | changed | event => exact .inr ⟨by decide, rfl⟩
  | dbcnt i =>
    refine .inr ⟨?_, rfl⟩
    rw [offsetOf_dbcnt_toNat i]
    simp only [List.mem_cons, List.not_mem_nil, or_false]
    omega

/-! ## The obligations -/

/-- Settles O2: the encoding is the word access to the transaction's register, which the map gives back. -/
theorem decodeOfEncodeIsTheTransaction : Obligations.DecodeOfEncodeIsTheTransaction := by
  unfold Obligations.DecodeOfEncodeIsTheTransaction
  intro n i hwf
  rw [encode_fst, decode_packTD_offsetOf (regAt_offsetOf (wellFormed_iff.mp hwf)), access_reg]

/-- Settles O3: an accepted descriptor is the word access to a register r, and so is the encoding of r's read or
write operation. -/
theorem acceptedDescriptorIsTheEncoding : Obligations.AcceptedDescriptorIsTheEncoding := by
  unfold Obligations.AcceptedDescriptorIsTheEncoding
  intro n td wdata i h
  change _ ∧ _ ∧ _ ∧ i.isWrite = tdWrite td
  obtain ⟨r, hr, htd, hop⟩ := decode_eq_op h
  have hi : i.isWrite = tdWrite td ∧ i.reg = r ∧ (i.isWrite = true → (encode i).2 = wdata) := by
    cases hw : tdWrite td with
    | true =>
      rw [hw, if_pos rfl] at hop
      obtain ⟨hwrite, hreg, hdata⟩ := writeOp_eq_op hop
      exact ⟨hwrite, hreg, fun _ => hdata⟩
    | false =>
      rw [hw, if_neg Bool.false_ne_true] at hop
      obtain rfl : readOp r = i := Decoded.op.inj hop
      obtain ⟨hread, hreg⟩ := readOp_fields r
      exact ⟨hread, hreg, fun hwrite => absurd (hread.symm.trans hwrite) Bool.false_ne_true⟩
  obtain ⟨hwrite, rfl, hdata⟩ := hi
  exact ⟨wellFormed_iff.mpr hr, by rw [encode_fst, hwrite, ← htd], hdata, hwrite⟩

/-- Settles O4, along the branches of the decoder. -/
theorem decodeCausesInPriorityOrder : Obligations.DecodeCausesInPriorityOrder := by
  unfold Obligations.DecodeCausesInPriorityOrder
  intro n td wdata
  simp only [ne_eq, ← tdSize_eq_wordSize_iff, ← tdOffset_aligned_iff, ← tdOffset_toNat, ← tdWrite_iff]
  by_cases hsize : tdSize td = wordSize
  · by_cases halign : (tdOffset td).extractLsb' 0 2 = 0b00#2
    · rw [← not_not (a := MappedOffset n _), ← regAt_eq_none_iff halign]
      cases hreg : regAt n (tdOffset td) with
      | none => simp [decode_of_regAt_none hsize halign hreg, hsize, halign]
      | some r =>
        obtain ⟨-, hoff⟩ := regAt_eq_some halign hreg
        rw [decode_of_regAt_some hsize halign hreg, ← hoff]
        cases tdWrite td with
        | false => simp [hsize, hoff, halign]
        | true =>
          obtain ⟨hmem, i, hop⟩ | ⟨hmem, hop⟩ := writeOp_cases wdata r <;>
            simp [hsize, hoff, halign, hop, hoff ▸ hmem, -List.mem_cons]
    · simp [decode_of_align hsize halign, hsize, halign]
  · simp [decode_of_size hsize, hsize]

/-- Settles O5: the map gives the register at its offset. -/
theorem registerAccessDecodesToItsOperation : Obligations.RegisterAccessDecodesToItsOperation := by
  unfold Obligations.RegisterAccessDecodesToItsOperation
  intro n r wdata hindex
  have hr : r.inBlock n := by
    cases r with
    | dbcnt i => exact hindex i rfl
    | ctrl | period | tval | count | cooldown | cfg | state | changed | event => trivial
  exact ⟨decode_packTD_offsetOf (regAt_offsetOf hr) false wdata,
    decode_packTD_offsetOf (regAt_offsetOf hr) true wdata⟩

/-- Settles O1, by running the table reader on the five words. -/
theorem tableWordsDecodeToTheirOperation : Obligations.TableWordsDecodeToTheirOperation := by
  unfold Obligations.TableWordsDecodeToTheirOperation
  decide

/-! ## The host's side of the bus -/

/-- The block is selected for the 256 bytes of its window, and for no other address (20 R50). -/
theorem inWindow_iff {p : Params} {addr : Nat} : inWindow p addr = true ↔ p.base ≤ addr ∧ addr < p.base + 256 := by
  simp [inWindow]

theorem hostAccess_inside {p : Params} {size : BitVec 2} {addr nbytes : Nat} (hsize : sizeOf? nbytes = some size)
    (h : inWindow p addr = true) (write : Bool) (wdata : Word) :
    hostAccess p write addr nbytes wdata = .txn (packTD size write (offsetOfAddr p addr)) wdata := by
  simp [hostAccess, hsize, h]

theorem hostAccess_outside {p : Params} {addr : Nat} (h : inWindow p addr = false) (write : Bool) (nbytes : Nat)
    (wdata : Word) : hostAccess p write addr nbytes wdata = .idle := by
  unfold hostAccess
  cases sizeOf? nbytes <;> simp [h]

theorem offsetOfAddr_toNat (p : Params) {off : Nat} (hoff : off < 256) :
    (offsetOfAddr p (p.base + off)).toNat = off := by
  rw [offsetOfAddr, Nat.add_sub_cancel_left, BitVec.toNat_ofNat, Nat.mod_eq_of_lt hoff]

/-- Settles O6: inside the window the descriptor packs the size's code, the direction and the offset. -/
theorem hostAccessPresentsItsDescriptor : Obligations.HostAccessPresentsItsDescriptor := by
  unfold Obligations.HostAccessPresentsItsDescriptor
  intro p write off wdata hoff
  constructor
  · intro q hq
    have hsize : sizeOf? q.2 = some q.1 := by
      revert q
      decide
    have hin : inWindow p (p.base + off) = true := inWindow_iff.mpr ⟨by omega, by omega⟩
    exact ⟨_, hostAccess_inside hsize hin write wdata, tdSize_packTD _ _ _, tdWrite_packTD _ _ _,
      by rw [tdOffset_packTD, offsetOfAddr_toNat p hoff]⟩
  · intro addr nbytes hout
    refine hostAccess_outside (Bool.eq_false_iff.mpr fun hin => ?_) write nbytes wdata
    obtain ⟨hlow, hhigh⟩ := inWindow_iff.mp hin
    omega

/-- Settles O7: two neighbouring lanes join to the bits that they cover, and the four cover the word. -/
theorem byteLanesAreLittleEndian : Obligations.ByteLanesAreLittleEndian := by
  unfold Obligations.ByteLanesAreLittleEndian
  intro w
  have h16 : byteLane w 1 ++ byteLane w 0 = w.extractLsb' 0 16 :=
    BitVec.extractLsb'_append_extractLsb'_eq_extractLsb' rfl
  have h24 : byteLane w 2 ++ w.extractLsb' 0 16 = w.extractLsb' 0 24 :=
    BitVec.extractLsb'_append_extractLsb'_eq_extractLsb' rfl
  have h32 : byteLane w 3 ++ w.extractLsb' 0 24 = w.extractLsb' 0 32 :=
    BitVec.extractLsb'_append_extractLsb'_eq_extractLsb' rfl
  rw [h16, h24, h32, BitVec.extractLsb'_eq_self]

end Sys2Proof
end

section
/-! PROOFS. What one step does: that it answers a next state, what a presented request makes of it, and who writes
the registers (10_state.md R33; 40_cycle_and_tick.md R100). -/

namespace Sys2Proof.Machine

open Sys2Proof

/-! ## The effects of the transactions -/

/-- The effects that a transaction can have in a state, each with its guard (41 R132, R134, R137; 42 R152;
43 R172). -/
inductive EffectOf (s : State) : Instr → Effect → Prop where
  | quiet (i : Instr) : EffectOf s i noEffect
  | enables (wdata : Word) (hbit : wdata.getLsbD 0 = true) (hen : s.en = false) (hperiod : s.period ≠ 0#32) :
      EffectOf s (.wrCtrl wdata) { noEffect with setEN := true }
  | storesPeriod (wdata : Word) (hen : s.en = false) :
      EffectOf s (.wrPeriod wdata) { noEffect with wrPERIOD := true }
  | storesCount (wdata : Word) : EffectOf s (.wrCount wdata) { noEffect with wrCOUNT := true }
  | storesCooldown (wdata : Word) (hen : s.en = false) :
      EffectOf s (.wrCooldown wdata) { noEffect with wrCOOLDOWN := true }
  | clears : EffectOf s .rdEvent { noEffect with clr := changedVec s }

theorem perform_wrCtrl_effect (s : State) (wdata : Word) :
    EffectOf s (.wrCtrl wdata) (performInstr (.wrCtrl wdata) s).effect := by
  by_cases h : wdata.getLsbD 0 = true ∧ s.en = false
  · obtain ⟨hbit, hen⟩ := h
    by_cases hperiod : s.period = 0#32
    · rw [perform_wrCtrl_zeroPeriod hbit hen hperiod]
      exact .quiet _
    · rw [perform_wrCtrl_enables hbit hen hperiod]
      exact .enables wdata hbit hen hperiod
  · rw [perform_wrCtrl_ignored (by simpa [or_iff_not_imp_left] using h)]
    exact .quiet _

/-- The effect of `perform` is one of these. -/
theorem perform_effect (i : Instr) (s : State) : EffectOf s i (performInstr i s).effect := by
  cases i with
  | rdCtrl | rdPeriod | rdTval | rdCount | rdCooldown | rdCfg | rdState | rdChanged => exact .quiet _
  | rdEvent => exact .clears
  | wrCtrl wdata => exact perform_wrCtrl_effect s wdata
  | wrCount wdata => exact .storesCount wdata
  | wrPeriod wdata =>
    cases hen : s.en with
    | false =>
      rw [perform_wrPeriod_stopped wdata hen]
      exact .storesPeriod wdata hen
    | true =>
      rw [perform_wrPeriod_locked wdata hen]
      exact .quiet _
  | wrCooldown wdata =>
    cases hen : s.en with
    | false =>
      rw [perform_wrCooldown_stopped wdata hen]
      exact .storesCooldown wdata hen
    | true =>
      rw [perform_wrCooldown_locked wdata hen]
      exact .quiet _
  | rdDbcnt j =>
    simp only [performInstr, performRdDbcnt]
    split <;> exact .quiet _

/-! ## What a step answers -/

/-- A meaning answers a next state: an edge with the effect, or an error edge. -/
theorem exec_answers (i : Instr) (s : State) : ∃ t, exec i s = .next t := by
  rw [exec_eq_finish]
  cases performInstr i s <;> exact ⟨_, rfl⟩

theorem step_of_op {s : State} {i : Instr} (hr : (nextCycle s).rstN = true)
    (h : decodeRequest s.params.n (nextCycle s).req = .op i) :
    step s = exec i (noteFetch (nextCycle s).req (beginCycle s)) := by
  simp [step, hr, h]

theorem step_of_error {s : State} {cause : Cause} {td : TD} {wdata : Word} (hr : (nextCycle s).rstN = true)
    (h : decodeRequest s.params.n (nextCycle s).req = .error cause td wdata) :
    step s = .next (busErrorEdge cause td wdata (noteFetch (nextCycle s).req (beginCycle s))) := by
  simp [step, hr, h]

theorem decodeRequest_of_op {n : Nat} {req : Request} {td : TD} {wdata : Word} {i : Instr}
    (hq : req.present = some (td, wdata)) (h : decode n td wdata = .op i) : decodeRequest n req = .op i := by
  simp [decodeRequest, hq, h]

theorem decodeRequest_of_error {n : Nat} {req : Request} {td : TD} {wdata : Word} {cause : Cause}
    (hq : req.present = some (td, wdata)) (h : decode n td wdata = .error cause) :
    decodeRequest n req = .error cause td wdata := by
  simp [decodeRequest, hq, h]

/-- Only an Idle request presents nothing. -/
theorem present_eq_none_iff {req : Request} : req.present = none ↔ req = .idle := by
  cases req <;> simp [Request.present]

/-- Settles O13, along the branches of the step. -/
theorem everyStepAnswersNext : Obligations.EveryStepAnswersNext := by
  unfold Obligations.EveryStepAnswersNext
  intro s
  cases hr : (nextCycle s).rstN with
  | false => exact ⟨_, step_of_reset hr⟩
  | true =>
    cases hq : (nextCycle s).req.present with
    | none => exact ⟨_, step_of_idle hr (present_eq_none_iff.mp hq)⟩
    | some tw =>
      obtain ⟨td, wdata⟩ := tw
      cases hd : decode s.params.n td wdata with
      | op i =>
        rw [step_of_op hr (decodeRequest_of_op hq hd)]
        exact exec_answers i _
      | error cause => exact ⟨_, step_of_error hr (decodeRequest_of_error hq hd)⟩

/-- Settles O8: a transaction that is no fetch leaves no record of its own. -/
theorem stepRunsTheDecodedTransaction : Obligations.StepRunsTheDecodedTransaction := by
  unfold Obligations.StepRunsTheDecodedTransaction
  intro s c rest td wdata i hs hr hreq hd
  rw [← nextCycle_of_cons hs] at hr hreq
  have hop := decodeRequest_of_op (req := (nextCycle s).req) (by rw [hreq]; rfl) hd
  rw [step_of_op hr hop, hreq, beginCycle_of_cons hs]
  rfl

/-- Settles O11: with nothing queued the cycle is Idle, and its edge is quiet. -/
theorem emptyQueueIsIdleWithFreeLevels : Obligations.EmptyQueueIsIdleWithFreeLevels := by
  unfold Obligations.EmptyQueueIsIdleWithFreeLevels
  intro s hs
  have hc : nextCycle s = { rstN := true, req := .idle, raw := Config.rawDraw s.draws } := by
    simp [nextCycle, hs]
  have hb : beginCycle s = { s with raw := Config.rawDraw s.draws, draws := s.draws + 1 } := by
    simp [beginCycle, hs]
  refine ⟨idleEdge (beginCycle s), step_of_idle (by rw [hc]) (by rw [hc]), rfl, ?_⟩
  rw [hb]
  exact clockEdge_quiet _ .none 0#32

/-- The state in which the fetch has been recorded and the read of its descriptor stands at the bus. -/
def readForFetch (s : State) (c : Cycle) (rest : List Cycle) (size : BitVec 2) (off : Offset) : State :=
  { s with
    inbox := { c with req := .txn (packTD size false off) 0#32 } :: rest
    faults := s.faults ++ [.hostFetch (packTD size false off)] }

/-- Settles O12: both requests present the same descriptor, and the edge starts from the same state, in which
the fetch has been recorded. -/
theorem fetchIsPerformedAsARead : Obligations.FetchIsPerformedAsARead := by
  unfold Obligations.FetchIsPerformedAsARead
  intro s c rest size off hs hreq hr
  change step s = step (readForFetch s c rest size off)
  have hread : (nextCycle (readForFetch s c rest size off)).req.present = some (packTD size false off, 0#32) := rfl
  have hfetch : (nextCycle s).req.present = some (packTD size false off, 0#32) := by
    rw [nextCycle_of_cons hs, hreq]
    rfl
  have hnote : noteFetch (nextCycle s).req (beginCycle s) = beginCycle (readForFetch s c rest size off) := by
    rw [nextCycle_of_cons hs, hreq, beginCycle_of_cons hs]
    rfl
  rw [← nextCycle_of_cons hs] at hr
  have hr' : (nextCycle (readForFetch s c rest size off)).rstN = true := by
    rwa [nextCycle_of_cons hs] at hr
  cases hd : decode s.params.n (packTD size false off) 0#32 with
  | op i =>
    rw [step_of_op hr (decodeRequest_of_op hfetch hd), step_of_op hr' (decodeRequest_of_op hread hd), hnote]
    rfl
  | error cause =>
    rw [step_of_error hr (decodeRequest_of_error hfetch hd), step_of_error hr' (decodeRequest_of_error hread hd),
      hnote]
    rfl

/-- Settles O14: the frame of a step is that of its clock edge. -/
theorem everyEdgeRunsTheChannels : Obligations.EveryEdgeRunsTheChannels := by
  unfold Obligations.EveryEdgeRunsTheChannels
  exact fun s t hr h => step_edgeRuns hr h

/-! ## The record of faults -/

/-- Only READONLY among the causes that decode gives has its data word recorded (60 R201). -/
theorem errorFault_of_decode {n : Nat} {td : TD} {wdata : Word} {cause : Cause}
    (h : decode n td wdata = .error cause) :
    errorFault cause td wdata = .busError cause td (if cause = .readonly then some wdata else none) := by
  obtain ⟨-, -, -, -, hlocked, hzero⟩ := decodeCausesInPriorityOrder n td wdata
  rw [h] at hlocked hzero
  cases cause with
  | size | align | unmapped | readonly => rfl
  | locked => exact absurd rfl hlocked
  | zeroPeriod => exact absurd rfl hzero

/-- Settles O9: the error edge is the Idle edge with its response and its record beside it. -/
theorem rejectedTransactionActsAsIdle : Obligations.RejectedTransactionActsAsIdle := by
  unfold Obligations.RejectedTransactionActsAsIdle
  intro s c rest td wdata cause hs hr hreq hd
  rw [← nextCycle_of_cons hs] at hr hreq
  have herr := decodeRequest_of_error (req := (nextCycle s).req) (by rw [hreq]; rfl) hd
  have hidle := step_of_idle (s := { s with inbox := { c with req := .idle } :: rest })
    (by rw [nextCycle_of_cons hs] at hr; exact hr) rfl
  refine ⟨_, _, step_of_error hr herr, hidle, ?_, rfl, rfl, ?_⟩
  · rw [← errorFault_of_decode hd, beginCycle_of_cons hs, hreq]
    rfl
  · rw [hreq, beginCycle_of_cons hs]
    exact busErrorEdge_quiet cause td wdata _

/-- A record grown by the new entries, which hold a bus error exactly of the cause that the response gives. -/
def RecordsItsError (old : List Fault) (t : State) : Prop :=
  ∃ new, t.faults = old ++ new ∧ ∀ c, t.resp = .error c ↔ ∃ td w, Fault.busError c td w ∈ new

/-- With no error response the record stays. -/
theorem recordsItsError_of_quiet {old : List Fault} {t : State} (hf : t.faults = old)
    (hresp : ∀ c, t.resp ≠ .error c) : RecordsItsError old t :=
  ⟨[], by simp [hf], by simpa using hresp⟩

/-- An error edge records the cause that it answers. -/
theorem busErrorEdge_recordsItsError (cause : Cause) (td : TD) (wdata : Word) (s : State) :
    RecordsItsError s.faults (busErrorEdge cause td wdata s) := by
  refine ⟨[errorFault cause td wdata], rfl, fun c => ?_⟩
  rw [busErrorEdge_resp, Response.error.injEq]
  constructor
  · rintro rfl
    exact ⟨td, _, List.mem_singleton.mpr rfl⟩
  · rintro ⟨td', w, hmem⟩
    exact (Fault.busError.inj (List.mem_singleton.mp hmem)).1.symm

/-- A meaning records its error. -/
theorem exec_recordsItsError {i : Instr} {s t : State} (h : exec i s = .next t) : RecordsItsError s.faults t := by
  rw [exec_eq_finish] at h
  obtain ⟨r, eff, -, rfl⟩ | ⟨c, -, rfl⟩ := finish_cases h
  · exact recordsItsError_of_quiet rfl (by simp)
  · exact busErrorEdge_recordsItsError _ _ _ _

/-- The note of a fetch is no bus error. -/
theorem RecordsItsError.of_noteFetch {q : Request} {s t : State}
    (h : RecordsItsError (noteFetch q s).faults t) : RecordsItsError s.faults t := by
  cases q with
  | idle | txn td wdata => exact h
  | fetch size off =>
    obtain ⟨new, hf, hnew⟩ := h
    refine ⟨.hostFetch (packTD size false off) :: new, ?_, fun c => ?_⟩
    · simp [hf, noteFetch]
    · simp [hnew]

/-- Settles O42, along the cases of the step. -/
theorem everyErrorIsRecorded : Obligations.EveryErrorIsRecorded := by
  unfold Obligations.EveryErrorIsRecorded
  intro s t h
  change RecordsItsError s.faults t
  rw [← beginCycle_faults s]
  obtain ⟨-, rfl⟩ | ⟨-, ⟨-, rfl⟩ | ⟨i, -, he⟩ | ⟨c, td, w, -, rfl⟩⟩ := step_cases h
  · exact recordsItsError_of_quiet rfl (by simp)
  · exact recordsItsError_of_quiet rfl (by simp [idleEdge])
  · exact (exec_recordsItsError he).of_noteFetch
  · exact (busErrorEdge_recordsItsError _ _ _ _).of_noteFetch

/-! ## The writers of the registers -/

/-- A step that is no reset is a clock edge with an effect of the requested operation, or with none. -/
theorem step_effect {s t : State} (hr : (nextCycle s).rstN = true) (h : step s = .next t) :
    ∃ r eff w fs, t = { clockEdge (beginCycle s) r eff w with faults := fs } ∧
      (eff = noEffect ∨ ∃ i, requestedOp s.params.n (nextCycle s).req = some i ∧
        EffectOf (beginCycle s) i eff ∧ w = (encode i).2) := by
  obtain ⟨r, eff, w, fs, ht, heff⟩ := step_edge hr h
  refine ⟨r, eff, w, fs, ht, heff.imp_right ?_⟩
  rintro ⟨i, hreq, rfl, hw⟩
  exact ⟨i, hreq, perform_effect i _, hw⟩

section Writers

variable {s t : State}

/-- EN goes only from 0 to 1, by a WR_CTRL (10 R21). -/
theorem step_en (hr : (nextCycle s).rstN = true) (h : step s = .next t) :
    t.en = s.en ∨ s.en = false ∧ t.en = true ∧ s.period ≠ 0#32 ∧
      ∃ w : Word, w.getLsbD 0 = true ∧ requestedOp s.params.n (nextCycle s).req = some (.wrCtrl w) := by
  obtain ⟨r, eff, w, fs, rfl, rfl | ⟨i, hreq, heff, rfl⟩⟩ := step_effect hr h
  · exact .inl (beginCycle_en s)
  cases heff with
  | enables wdata hbit hen hperiod =>
    exact .inr ⟨by simpa using hen, rfl, by simpa using hperiod, wdata, hbit, hreq⟩
  | quiet | storesPeriod | storesCount | storesCooldown | clears => exact .inl (beginCycle_en s)

/-- PERIOD is written only by a WR_PERIOD while EN is 0 (10 R22). -/
theorem step_period (hr : (nextCycle s).rstN = true) (h : step s = .next t) :
    t.period = s.period ∨ s.en = false ∧ requestedOp s.params.n (nextCycle s).req = some (.wrPeriod t.period) := by
  obtain ⟨r, eff, w, fs, rfl, rfl | ⟨i, hreq, heff, rfl⟩⟩ := step_effect hr h
  · exact .inl (beginCycle_period s)
  cases heff with
  | storesPeriod wdata hen => exact .inr ⟨by simpa using hen, hreq⟩
  | quiet | enables | storesCount | storesCooldown | clears => exact .inl (beginCycle_period s)

/-- COOLDOWN is written only by a WR_COOLDOWN while EN is 0 (10 R25). -/
theorem step_cooldown (hr : (nextCycle s).rstN = true) (h : step s = .next t) :
    t.cooldown = s.cooldown ∨ s.en = false ∧ ∃ w : Word, w.toNat % 65536 = t.cooldown.toNat ∧
      requestedOp s.params.n (nextCycle s).req = some (.wrCooldown w) := by
  obtain ⟨r, eff, w, fs, rfl, rfl | ⟨i, hreq, heff, rfl⟩⟩ := step_effect hr h
  · exact .inl (beginCycle_cooldown s)
  cases heff with
  | storesCooldown wdata hen =>
    exact .inr ⟨by simpa using hen, wdata, (cooldownData_toNat wdata).symm, hreq⟩
  | quiet | enables | storesPeriod | storesCount | clears => exact .inl (beginCycle_cooldown s)

/-- COUNT runs with the ticks unless a WR_COUNT writes it (10 R24, 40 R111 case 1). -/
theorem step_count (hr : (nextCycle s).rstN = true) (h : step s = .next t) :
    CountdownRuns (beginCycle s) t ∨ requestedOp s.params.n (nextCycle s).req = some (.wrCount t.count) := by
  obtain ⟨r, eff, w, fs, rfl, heff⟩ := step_effect hr h
  have hruns (hw : eff.wrCOUNT = false) :
      CountdownRuns (beginCycle s) { clockEdge (beginCycle s) r eff w with faults := fs } :=
    ⟨(clockEdge_countdown (beginCycle s) r eff w hw).holds, (clockEdge_countdown (beginCycle s) r eff w hw).ticks⟩
  obtain rfl | ⟨i, hreq, heff, rfl⟩ := heff
  · exact .inl (hruns rfl)
  cases heff with
  | storesCount wdata => exact .inr hreq
  | quiet | enables | storesPeriod | storesCooldown | clears => exact .inl (hruns rfl)

end Writers

/-- The tick condition does not read the inputs of the cycle. -/
@[simp] theorem tickAt_beginCycle (s : State) : TickAt (beginCycle s) ↔ TickAt s := by
  simp [TickAt]

/-- Settles O30: the writers of the four registers, one by one. -/
theorem registersHaveOnlyTheirWriters : Obligations.RegistersHaveOnlyTheirWriters := by
  unfold Obligations.RegistersHaveOnlyTheirWriters
  intro s t hr h
  refine ⟨step_en hr h, step_period hr h, step_cooldown hr h, ?_⟩
  obtain hruns | hwrite := step_count hr h
  · by_cases htick : TickAt s
    · exact .inr (.inl ⟨htick, by simpa using hruns.ticks ((tickAt_beginCycle s).mpr htick)⟩)
    · exact .inl (by simpa using hruns.holds (by rwa [tickAt_beginCycle]))
  · exact .inr (.inr hwrite)

/-! ## Runs -/

section Runs

variable {k : Nat} {s t : State} {P : State → Prop}

/-- What every step keeps, a run keeps. -/
theorem after_keeps (hstep : ∀ s u, P s → step s = .next u → P u) (hs : P s) (h : after k s = some t) : P t := by
  induction k generalizing s with
  | zero => exact Option.some.inj h ▸ hs
  | succ k ih =>
    obtain ⟨u, hu, ht⟩ := after_succ.mp h
    exact ih (hstep s u hs hu) ht

/-- What every step that is no reset keeps, a run with reset released keeps. -/
theorem after_keeps_released (hstep : ∀ s u, (nextCycle s).rstN = true → P s → step s = .next u → P u)
    (hrel : ResetReleased k s) (hs : P s) (h : after k s = some t) : P t := by
  induction k generalizing s with
  | zero => exact Option.some.inj h ▸ hs
  | succ k ih =>
    obtain ⟨u, hu, ht⟩ := after_succ.mp h
    exact ih (hrel.tail hu) (hstep s u hrel.head hs hu) ht

end Runs

/-- Settles O29: a step keeps the parameters. -/
theorem parametersNeverChange : Obligations.ParametersNeverChange := by
  unfold Obligations.ParametersNeverChange
  intro k s t h
  exact after_keeps (P := fun x => x.params = s.params)
    (fun x u hx hu => (step_inputs hu).1.trans hx) rfl h

/-- While EN is 1 it stays 1, and PERIOD and COOLDOWN are locked (10 R21, R22, R25). -/
theorem step_running {s t : State} (hr : (nextCycle s).rstN = true) (hen : s.en = true) (h : step s = .next t) :
    t.en = true ∧ t.period = s.period ∧ t.cooldown = s.cooldown := by
  have hnot : ¬ s.en = false := by simp [hen]
  refine ⟨?_, (step_period hr h).resolve_right fun hw => hnot hw.1,
    (step_cooldown hr h).resolve_right fun hw => hnot hw.1⟩
  rw [(step_en hr h).resolve_right fun hw => hnot hw.1, hen]

/-- Settles O32: a step keeps the three together. -/
theorem runningBlockStaysArmedAndLocked : Obligations.RunningBlockStaysArmedAndLocked := by
  unfold Obligations.RunningBlockStaysArmedAndLocked
  intro k s t hrel hen h
  refine after_keeps_released (P := fun x => x.en = true ∧ x.period = s.period ∧ x.cooldown = s.cooldown)
    ?_ hrel ⟨hen, rfl, rfl⟩ h
  rintro x u hr ⟨hx, hp, hc⟩ hu
  obtain ⟨hen', hperiod, hcooldown⟩ := step_running hr hx hu
  exact ⟨hen', hperiod.trans hp, hcooldown.trans hc⟩

end Sys2Proof.Machine
end

section
/-! PROOFS. The changed flags and the invariant, step by step (10_state.md R29, R30; 43_change_channel.md R173). -/

namespace Sys2Proof.Machine

open Sys2Proof

/-! ## The changed flags at one step -/

section Flags

variable {s t : State} {i : Nat}

/-- Every flag is kept or set by an accepted transition, unless an RD_EVENT is performed (10 R29). -/
theorem step_flags (hr : (nextCycle s).rstN = true) (h : step s = .next t) :
    FlagsKept (beginCycle s) t ∨ requestedOp s.params.n (nextCycle s).req = some .rdEvent := by
  obtain ⟨r, eff, w, fs, rfl, heff⟩ := step_effect hr h
  have hkept (hclr : eff.clr = 0#16) :
      FlagsKept (beginCycle s) { clockEdge (beginCycle s) r eff w with faults := fs } :=
    clockEdge_flagsKept (beginCycle s) r eff w hclr
  obtain rfl | ⟨i, hreq, heff, rfl⟩ := heff
  · exact .inl (hkept rfl)
  cases heff with
  | clears => exact .inr hreq
  | quiet | enables | storesPeriod | storesCount | storesCooldown => exact .inl (hkept rfl)

/-- Whatever the transaction, an accepted transition sets the flag, and nothing else does (40 R111). -/
theorem step_changed (hr : (nextCycle s).rstN = true) (h : step s = .next t) (hi : i < s.ch.length) :
    (Accepts (beginCycle s) i → (t.chan i).changed = true) ∧
      ((t.chan i).changed = true → (s.chan i).changed = true ∨ Accepts (beginCycle s) i) := by
  obtain ⟨r, eff, w, fs, rfl, -⟩ := step_effect hr h
  have hflag := clockEdge_changed (beginCycle s) r eff w (i := i) (by simpa using hi)
  rw [beginCycle_chan] at hflag
  exact ⟨fun ha => hflag.mpr (.inr ha), fun hc => (hflag.mp hc).imp_left And.left⟩

/-- A stable state flips only where a transition is accepted (10 R28). -/
theorem step_stable (hr : (nextCycle s).rstN = true) (h : step s = .next t) (hi : i < s.ch.length) :
    (t.chan i).stable ≠ (s.chan i).stable ↔ Accepts (beginCycle s) i := by
  have hlane := (step_edgeRuns hr h).laneRuns i (by simpa using hi)
  constructor
  · intro hflip
    by_contra hnot
    rw [← beginCycle_chan s i] at hflip
    by_cases htick : TickAt (beginCycle s)
    · by_cases hdbt : ((beginCycle s).chan i).dbt = 0#16
      · refine hflip (hlane.stays htick hdbt ?_).2
        by_contra hlevel
        exact hnot ⟨htick, hdbt, hlevel⟩
      · exact hflip (hlane.cools htick hdbt).2
    · exact hflip (hlane.holds htick).2
  · rintro ⟨htick, hdbt, hlevel⟩
    rw [(hlane.accepts htick hdbt hlevel).2, ← beginCycle_chan s i]
    exact hlevel

end Flags

/-- Settles O31: flags are set, and stable states flip, exactly by accepted transitions, and a flag that goes is
not kept. -/
theorem flagsAreSetByFlipsAndClearedByEvent : Obligations.FlagsAreSetByFlipsAndClearedByEvent := by
  unfold Obligations.FlagsAreSetByFlipsAndClearedByEvent
  intro s t i hr h hi
  obtain ⟨hset, honly⟩ := step_changed hr h hi
  have hflip := step_stable hr h hi
  refine ⟨fun hclear hchanged => ?_, fun hchanged hclear => ?_, fun hne => ?_⟩
  · have ha := (honly hchanged).resolve_left (Bool.eq_false_iff.mp hclear)
    exact ⟨(tickAt_beginCycle s).mp ha.1, hflip.mpr ha⟩
  · refine (step_flags hr h).resolve_left fun hkept => Bool.eq_false_iff.mp hclear ?_
    exact (hkept i (by simpa using hi)).mpr (.inl (by simpa using hchanged))
  · have ha := hflip.mp hne
    exact ⟨(tickAt_beginCycle s).mp ha.1, hset ha⟩

/-! ## The flag of an accepted transition -/

/-- A set flag stays set over a run with no RD_EVENT (43 R173). -/
theorem run_keeps_flag {k i : Nat} {s t : State} (hrel : ResetReleased k s) (hno : NoEventRead k s)
    (hi : i < s.ch.length) (hflag : (s.chan i).changed = true) (h : after k s = some t) :
    (t.chan i).changed = true := by
  induction k generalizing s with
  | zero => exact Option.some.inj h ▸ hflag
  | succ k ih =>
    obtain ⟨u, hu, ht⟩ := after_succ.mp h
    have hkept := (step_flags hrel.head hu).resolve_right hno.head
    refine ih (hrel.tail hu) (hno.tail hu) (by rwa [step_ch_length hrel.head hu]) ?_ ht
    exact (hkept i (by simpa using hi)).mpr (.inl (by simpa using hflag))

/-- Settles O38: the accepting edge sets the flag, the run keeps it, and EVENT is read from the state then
reached. -/
theorem noTransitionIsLost : Obligations.NoTransitionIsLost := by
  unfold Obligations.NoTransitionIsLost
  intro k i s u t hr hlegal hi hin ha hu hrel hno ht
  have hflag : (t.chan i).changed = true :=
    run_keeps_flag hrel hno (by rwa [step_ch_length hr hu]) ((step_changed hr hu hi).1 ha) ht
  have hparams : t.params = s.params := (parametersNeverChange k u t ht).trans (step_inputs hu).1
  have hn : t.params.n ≤ 16 := le_sixteen_of_legal (hparams ▸ hlegal)
  have hit : i < t.params.n := by rwa [hparams]
  refine ⟨hflag, _, eventWord t, exec_of_done rfl, rfl, (getLsbD_eventWord_highHalf hn i).mpr ⟨hit, hflag⟩, ?_⟩
  rw [Bool.eq_iff_iff, getLsbD_eventWord_lowHalf hn (by omega)]
  exact and_iff_right hit

/-! ## Channels at rest -/

theorem channel_eq_rest_iff {c : Channel} :
    c = Channel.rest ↔ c.dbt = 0#16 ∧ c.stable = false ∧ c.changed = false := by
  cases c
  simp [Channel.rest]

/-- A property of every channel, lane by lane. -/
theorem forall_mem_ch_iff {s : State} {P : Channel → Prop} :
    (∀ c ∈ s.ch, P c) ↔ ∀ i, i < s.ch.length → P (s.chan i) := by
  rw [List.forall_mem_iff_getElem]
  refine forall_congr' fun i => forall_congr' fun hi => ?_
  simp [State.chan, List.getD, hi]

/-- With EN = 0 no lane ticks, so channels at rest stay at rest. -/
theorem step_keeps_rest {s t : State} (hr : (nextCycle s).rstN = true) (h : step s = .next t)
    (hen : s.en = false) (hrest : ∀ c ∈ s.ch, c = Channel.rest) : ∀ c ∈ t.ch, c = Channel.rest := by
  rw [forall_mem_ch_iff] at hrest ⊢
  intro i hi
  rw [step_ch_length hr h] at hi
  have hstill : ¬ TickAt (beginCycle s) := by simpa using not_tickAt_of_stopped hen
  have hlane := ((step_edgeRuns hr h).laneRuns i (by simpa using hi)).holds hstill
  rw [beginCycle_chan] at hlane
  have hflag : ¬ (t.chan i).changed = true := by
    intro hc
    obtain hold | ⟨htick, -⟩ := (step_changed hr h hi).2 hc
    · simp [hrest i hi, Channel.rest] at hold
    · exact hstill htick
  rw [channel_eq_rest_iff, hlane.1, hlane.2, hrest i hi]
  exact ⟨rfl, rfl, Bool.eq_false_iff.mpr hflag⟩

/-- A counter within COOLDOWN stays within the COOLDOWN of before the edge: it is kept, counted down, or loaded
with it (10 R30 item 3). -/
theorem LaneRuns.dbt_le {s t : State} {i : Nat} (h : LaneRuns s t i)
    (hle : (s.chan i).dbt.toNat ≤ s.cooldown.toNat) : (t.chan i).dbt.toNat ≤ s.cooldown.toNat := by
  by_cases htick : TickAt s
  · by_cases hdbt : (s.chan i).dbt = 0#16
    · by_cases hlevel : (s.raw.getLsbD i ^^ s.params.polarity.getLsbD i) = (s.chan i).stable
      · simp [(h.stays htick hdbt hlevel).1]
      · rw [(h.accepts htick hdbt hlevel).1]
    · rw [(h.cools htick hdbt).1]
      bv_omega
  · rw [(h.holds htick).1]
    exact hle

/-! ## TVAL at one step -/

/-- The prescaler runs, unless this step sets EN and loads it (40 R103, 41 R132). -/
theorem step_prescaler {s t : State} (hr : (nextCycle s).rstN = true) (h : step s = .next t) :
    (t.en = s.en ∧ PrescalerRuns (beginCycle s) t) ∨
      (s.en = false ∧ t.en = true ∧ t.period ≠ 0#32 ∧ t.tval = t.period - 1#32) := by
  obtain ⟨r, eff, w, fs, rfl, heff⟩ := step_effect hr h
  have hruns (hw : eff.setEN = false) :
      PrescalerRuns (beginCycle s) { clockEdge (beginCycle s) r eff w with faults := fs } := by
    obtain ⟨hholds, hreloads, hcounts⟩ := clockEdge_prescaler (beginCycle s) r eff w hw
    exact ⟨hholds, hreloads, hcounts⟩
  obtain rfl | ⟨i, -, heff, rfl⟩ := heff
  · exact .inl ⟨beginCycle_en s, hruns rfl⟩
  cases heff with
  | enables wdata hbit hen hperiod => exact .inr ⟨by simpa using hen, rfl, hperiod, rfl⟩
  | quiet | storesPeriod | storesCount | storesCooldown | clears => exact .inl ⟨beginCycle_en s, hruns rfl⟩

/-- With EN = 1 the prescaler counts down to 0 and starts again from PERIOD - 1 (40 R103). -/
theorem step_running_tval {s t : State} (hinv : Inv s) (hr : (nextCycle s).rstN = true) (hen : s.en = true)
    (h : step s = .next t) :
    t.tval.toNat + 1 = if s.tval = 0#32 then s.period.toNat else s.tval.toNat := by
  have hperiod := (hinv.running hen).1
  obtain ⟨-, hpre⟩ := (step_prescaler hr h).resolve_right fun hset => by simp [hen] at hset
  split
  · next hzero =>
    rw [hpre.reloads (by simpa using hen) (by simpa using hzero), beginCycle_period]
    bv_omega
  · next hne =>
    rw [hpre.counts (by simpa using hen) (by simpa using hne), beginCycle_tval]
    bv_omega

/-! ## The invariant -/

theorem inv_resetOf {p : Params} (hp : p.legal = true) : Inv (State.resetOf p) where
  legal := hp
  lanes := List.length_replicate
  running := fun h => absurd h Bool.false_ne_true
  stopped := fun _ => ⟨rfl, fun _ hc => (List.mem_replicate.mp hc).2⟩
  cooldown := fun c hc => by simp [(List.mem_replicate.mp hc).2, Channel.rest]

/-- The invariant reads nothing that a Reset step does not put at its reset value. -/
theorem inv_resetEdge {s : State} (hp : s.params.legal = true) : Inv (resetEdge s) := by
  obtain ⟨hlegal, hlanes, hrunning, hstopped, hcooldown⟩ := inv_resetOf hp
  exact ⟨hlegal, hlanes, hrunning, hstopped, hcooldown⟩

/-- The parameters of this model are legal (00 R9, 92 D29). -/
theorem config_params_legal : Config.params.legal = true := by
  simp [Params.legal, Config.params]

/-- Settles O16: the reset state is the table's, field by field. -/
theorem resetStateHoldsTheTable : Obligations.ResetStateHoldsTheTable :=
  ⟨fun _ => ⟨rfl, rfl, rfl, rfl, rfl, rfl, rfl⟩, rfl, rfl, rfl⟩

/-- Settles O17: the model's own parameters are legal, and its reset state is theirs. -/
theorem resetStateMeetsTheInvariant : Obligations.ResetStateMeetsTheInvariant :=
  ⟨fun _ hp => inv_resetOf hp, inv_resetOf config_params_legal⟩

/-- A step of a running block keeps the invariant: PERIOD and COOLDOWN stay, TVAL and the counters run below
them. -/
theorem step_keeps_inv_of_running {s t : State} (hinv : Inv s) (hr : (nextCycle s).rstN = true)
    (hen : s.en = true) (h : step s = .next t) : Inv t := by
  obtain ⟨hen', hperiod, hcooldown⟩ := step_running hr hen h
  obtain ⟨hpos, hle⟩ := hinv.running hen
  have htval := step_running_tval hinv hr hen h
  have hparams := (step_inputs h).1
  refine ⟨hparams ▸ hinv.legal, by rw [step_ch_length hr h, hparams, hinv.lanes], fun _ => ?_, ?_, ?_⟩
  · rw [hperiod]
    refine ⟨hpos, ?_⟩
    split at htval <;> omega
  · simp [hen']
  · have hold := forall_mem_ch_iff.mp hinv.cooldown
    rw [hcooldown, forall_mem_ch_iff]
    intro i hi
    rw [step_ch_length hr h] at hi
    have hlane := ((step_edgeRuns hr h).laneRuns i (by simpa using hi)).dbt_le (by simpa using hold i hi)
    rwa [beginCycle_cooldown] at hlane

/-- A step of a stopped block keeps the invariant: the channels stay at rest, and TVAL stays 0 or is loaded as EN
is set. -/
theorem step_keeps_inv_of_stopped {s t : State} (hinv : Inv s) (hr : (nextCycle s).rstN = true)
    (hen : s.en = false) (h : step s = .next t) : Inv t := by
  obtain ⟨htval, hrest⟩ := hinv.stopped hen
  have hrest' := step_keeps_rest hr h hen hrest
  have hparams := (step_inputs h).1
  refine ⟨hparams ▸ hinv.legal, by rw [step_ch_length hr h, hparams, hinv.lanes], ?_, ?_, ?_⟩
  · intro hen'
    obtain ⟨hsame, -⟩ | ⟨-, -, hperiod, hload⟩ := step_prescaler hr h
    · simp [hen, hen'] at hsame
    · exact ⟨hperiod, by rw [hload]; bv_omega⟩
  · intro hen'
    obtain ⟨-, hpre⟩ | ⟨-, hset, -⟩ := step_prescaler hr h
    · exact ⟨by rw [hpre.holds (by simpa using hen), beginCycle_tval, htval], hrest'⟩
    · simp [hen'] at hset
  · intro c hc
    simp [hrest' c hc, Channel.rest]

/-- Settles O28: a reset gives the reset state, and the other steps are those of a running or a stopped block. -/
theorem everyStepKeepsTheInvariant : Obligations.EveryStepKeepsTheInvariant := by
  unfold Obligations.EveryStepKeepsTheInvariant
  intro s t hinv h
  cases hr : (nextCycle s).rstN with
  | false =>
    obtain rfl : resetEdge (beginCycle s) = t := by simpa [step_of_reset hr] using h
    exact inv_resetEdge (by simpa using hinv.legal)
  | true =>
    cases hen : s.en with
    | true => exact step_keeps_inv_of_running hinv hr hen h
    | false => exact step_keeps_inv_of_stopped hinv hr hen h

end Sys2Proof.Machine
end

section
/-! PROOFS. The ticks of a run and the countdown (40_cycle_and_tick.md R101, R103, R105, R114). -/

namespace Sys2Proof.Machine

open Sys2Proof

/-! ## Ticks -/

/-- The cycle's `tick_o` is the tick condition of the state before its edge (40 R102). -/
theorem step_tickO {s u : State} (hr : (nextCycle s).rstN = true) (h : step s = .next u) :
    u.tickO = true ↔ TickAt s := by
  rw [← tickAt_beginCycle s]
  exact (step_edgeRuns hr h).keeps.tickO

/-- A running block ticks where TVAL is 0 (40 R101). -/
theorem tickAt_iff_of_running {s : State} (hen : s.en = true) : TickAt s ↔ s.tval = 0#32 := by
  simp [TickAt, hen]

/-- The ticks of a run of a running block, by the phase of its first edge. -/
theorem ticksIn_succ_of_running {k : Nat} {s u : State} (hr : (nextCycle s).rstN = true) (hen : s.en = true)
    (h : step s = .next u) :
    ticksIn (k + 1) s = (if s.tval = 0#32 then 1 else 0) + ticksIn k u := by
  rw [ticksIn_succ h]
  simp only [step_tickO hr h, tickAt_iff_of_running hen]

/-- A block that is stopped at the end of a run was stopped all along, and has not ticked. -/
theorem run_stopped {k : Nat} {s t : State} (hrel : ResetReleased k s) (h : after k s = some t)
    (hen : t.en = false) : s.en = false ∧ ticksIn k s = 0 := by
  induction k generalizing s with
  | zero => exact ⟨Option.some.inj h ▸ hen, rfl⟩
  | succ k ih =>
    obtain ⟨u, hu, ht⟩ := after_succ.mp h
    obtain ⟨hstopped, hnone⟩ := ih (hrel.tail hu) ht
    have hs : s.en = false := by
      by_contra hrun
      have := (step_running hrel.head (by simpa using hrun) hu).1
      simp [hstopped] at this
    have hstill : ¬ u.tickO = true := fun hO => not_tickAt_of_stopped hs ((step_tickO hrel.head hu).mp hO)
    exact ⟨hs, by rw [ticksIn_succ hu, hnone, if_neg hstill]⟩

/-- Settles O34, by induction on the edges: each lowers the phase by one, or starts it again at PERIOD - 1. -/
theorem ticksComeEveryPeriod : Obligations.TicksComeEveryPeriod := by
  unfold Obligations.TicksComeEveryPeriod
  intro j
  induction j with
  | zero =>
    rintro s t - hen - ⟨⟩
    rw [tickAt_iff_of_running hen]
    constructor
    · intro hzero
      exact ⟨0, by simp [hzero]⟩
    · rintro ⟨m, hm⟩
      bv_omega
  | succ j ih =>
    intro s t hinv hen hrel h
    obtain ⟨u, hu, ht⟩ := after_succ.mp h
    obtain ⟨hen', hperiod, -⟩ := step_running hrel.head hen hu
    have htval := step_running_tval hinv hrel.head hen hu
    rw [ih u t (everyStepKeepsTheInvariant s u hinv hu) hen' (hrel.tail hu) ht, hperiod]
    by_cases hzero : s.tval = 0#32
    · rw [if_pos hzero] at htval
      have hz : s.tval.toNat = 0 := by simp [hzero]
      constructor
      · rintro ⟨m, hm⟩
        exact ⟨m + 1, by rw [Nat.succ_mul]; omega⟩
      · rintro ⟨_ | m, hm⟩
        · omega
        · exact ⟨m, by rw [Nat.succ_mul] at hm; omega⟩
    · rw [if_neg hzero] at htval
      exact exists_congr fun m => by omega

/-! ## The countdown -/

/-- COUNT at one step with no WR_COUNT: a tick lowers it by one, down to 0 (40 R105). -/
theorem step_countdown {s u : State} (hr : (nextCycle s).rstN = true) (h : step s = .next u)
    (hno : ∀ w, requestedOp s.params.n (nextCycle s).req ≠ some (.wrCount w)) :
    u.count.toNat = s.count.toNat - (if u.tickO then 1 else 0) := by
  have hruns := (step_count hr h).resolve_right (hno _)
  by_cases htick : TickAt s
  · rw [if_pos ((step_tickO hr h).mpr htick), hruns.ticks (by simpa using htick), beginCycle_count]
  · rw [if_neg fun hO => htick ((step_tickO hr h).mp hO), hruns.holds (by simpa using htick), beginCycle_count,
      Nat.sub_zero]

/-- Over a run with no WR_COUNT, COUNT is lowered by the number of ticks, down to 0. -/
theorem run_countdown {k : Nat} {s t : State} (hrel : ResetReleased k s) (hno : NoCountWrite k s)
    (h : after k s = some t) : t.count.toNat = s.count.toNat - ticksIn k s := by
  induction k generalizing s with
  | zero => exact Option.some.inj h ▸ rfl
  | succ k ih =>
    obtain ⟨u, hu, ht⟩ := after_succ.mp h
    rw [ih (hrel.tail hu) (hno.tail hu) ht, step_countdown hrel.head hu hno.head, ticksIn_succ hu, Nat.sub_sub]

/-- Settles O33: a stopped run has no ticks, so COUNT is lowered by none; the rest is the invariant of its last
state. -/
theorem stoppedBlockNeverTicks : Obligations.StoppedBlockNeverTicks := by
  unfold Obligations.StoppedBlockNeverTicks
  intro k s t hinv hrel h hen
  obtain ⟨-, hnone⟩ := run_stopped hrel h hen
  have hinv' : Inv t := after_keeps everyStepKeepsTheInvariant hinv h
  refine ⟨hnone, (hinv'.stopped hen).2, fun hno => ?_⟩
  apply BitVec.eq_of_toNat_eq
  rw [run_countdown hrel hno h, hnone, Nat.sub_zero]

theorem requestedOp_eq_some {n : Nat} {req : Request} {i : Instr} (h : requestedOp n req = some i) :
    decodeRequest n req = .op i := by
  unfold requestedOp at h
  split at h
  · contradiction
  · next hd => rw [hd, Option.some.inj h]
  · contradiction

/-- A step that performs a WR_COUNT leaves its data in COUNT (41 R137). -/
theorem step_wrCount {s u : State} {d : Word} (hr : (nextCycle s).rstN = true)
    (hreq : requestedOp s.params.n (nextCycle s).req = some (.wrCount d)) (h : step s = .next u) :
    u.count = d := by
  rw [step_of_op hr (requestedOp_eq_some hreq), exec_of_done (i := .wrCount d) rfl] at h
  exact congrArg State.count (Host.Outcome.next.inj h).symm

/-- Settles O35: the write's own edge leaves D, and the run after it counts the ticks. -/
theorem countdownCountsTheTicks : Obligations.CountdownCountsTheTicks := by
  unfold Obligations.CountdownCountsTheTicks
  intro k s u t d hr hreq hu hrel hno ht
  rw [run_countdown hrel hno ht, step_wrCount hr hreq hu]

/-! ## The countdown in cycles -/

/-- A running block has made d ticks exactly from TVAL + 1 + (d - 1) * PERIOD edges on: the first comes at the
edge that finds TVAL at 0, and each later one PERIOD edges after the one before. -/
theorem le_ticksIn_iff {k d : Nat} {s t : State} (hinv : Inv s) (hen : s.en = true) (hd : 1 ≤ d)
    (hrel : ResetReleased k s) (h : after k s = some t) :
    d ≤ ticksIn k s ↔ s.tval.toNat + 1 + (d - 1) * s.period.toNat ≤ k := by
  induction k generalizing s d with
  | zero =>
    simp only [ticksIn]
    omega
  | succ k ih =>
    obtain ⟨u, hu, ht⟩ := after_succ.mp h
    obtain ⟨hen', hperiod, -⟩ := step_running hrel.head hen hu
    have htval := step_running_tval hinv hrel.head hen hu
    have hrest (e : Nat) (he : 1 ≤ e) := ih (everyStepKeepsTheInvariant s u hinv hu) hen' he (hrel.tail hu) ht
    rw [ticksIn_succ_of_running hrel.head hen hu]
    by_cases hzero : s.tval = 0#32
    · have hz : s.tval.toNat = 0 := by simp [hzero]
      rw [if_pos hzero] at htval ⊢
      obtain rfl | ⟨e, rfl⟩ : d = 1 ∨ ∃ e, d = e + 2 := by
        obtain _ | _ | e := d
        · omega
        · exact .inl rfl
        · exact .inr ⟨e, rfl⟩
      · simp [hz]
      · have hlater := hrest (e + 1) (by omega)
        rw [hperiod, Nat.add_sub_cancel] at hlater
        rw [show e + 2 - 1 = e + 1 from rfl, Nat.succ_mul]
        omega
    · rw [if_neg hzero] at htval ⊢
      have hlater := hrest d hd
      rw [hperiod] at hlater
      omega

/-- Settles O36: COUNT is 0 exactly where the run has made D ticks. -/
theorem countReachesZeroOnTime : Obligations.CountReachesZeroOnTime := by
  unfold Obligations.CountReachesZeroOnTime
  intro k s t hinv hen hcount hrel hno h
  rw [← le_ticksIn_iff hinv hen hcount hrel h, ← BitVec.toNat_inj, run_countdown hrel hno h]
  exact Nat.sub_eq_zero_iff_le

end Sys2Proof.Machine
end

section
/-! PROOFS. The statements about DBCNT, about two reads of the flags in a row and about one lane beside another
(42_debounce.md R155, R156; 43_change_channel.md R176; 40_cycle_and_tick.md R110). -/

namespace Sys2Proof.Machine

open Sys2Proof

/-! ## DBCNT -/

/-- No two registers stand at one offset: a block with all 16 slots gives each back from its own. -/
theorem offsetOf_injective {r r' : Reg} (h : offsetOf r = offsetOf r') : r = r' := by
  have hall (q : Reg) : q.inBlock 16 := by
    cases q with
    | dbcnt i => exact i.isLt
    | ctrl | period | tval | count | cooldown | cfg | state | changed | event => trivial
  have hr := regAt_offsetOf (hall r)
  rw [h, regAt_offsetOf (hall r')] at hr
  exact (Option.some.inj hr).symm

/-- The map is empty at the offset of a register that the block does not have. -/
theorem regAt_offsetOf_eq_none {n : Nat} {r : Reg} (hr : ¬ r.inBlock n) : regAt n (offsetOf r) = none := by
  cases hreg : regAt n (offsetOf r) with
  | none => rfl
  | some r' =>
    obtain ⟨hr', hoff⟩ := regAt_eq_some (offsetOf_aligned r) hreg
    exact absurd (offsetOf_injective hoff ▸ hr') hr

theorem decode_packTD_unmapped {n : Nat} {r : Reg} (hr : ¬ r.inBlock n) (write : Bool) (wdata : Word) :
    decode n (packTD wordSize write (offsetOf r)) wdata = .error .unmapped :=
  decode_of_regAt_none (tdSize_packTD _ _ _) (by rw [tdOffset_packTD, offsetOf_aligned])
    (by rw [tdOffset_packTD, regAt_offsetOf_eq_none hr])

theorem perform_rdDbcnt_mapped {s : State} {i : BitVec 4} (hi : i.toNat < s.params.n) :
    performInstr (.rdDbcnt i) s = .done (dbcntWord s i.toNat) noEffect := if_pos hi

theorem perform_rdDbcnt_unmapped {s : State} {i : BitVec 4} (hi : s.params.n ≤ i.toNat) :
    performInstr (.rdDbcnt i) s = .raise .unmapped := if_neg (by omega)

/-- Settles O22: below N the read has no effect; from N on `perform` and the decoder both give UNMAPPED. -/
theorem rdDbcntAnswersTheCooldownCounter : Obligations.RdDbcntAnswersTheCooldownCounter := by
  unfold Obligations.RdDbcntAnswersTheCooldownCounter
  intro s i
  refine ⟨fun hi => ⟨_, answersQuietly_of_perform (perform_rdDbcnt_mapped hi), toNat_zero_append 16 _⟩,
    fun hi => errorsQuietly_of_perform (perform_rdDbcnt_unmapped hi), ?_, fun n wdata => ?_⟩
  · revert i
    decide
  · rw [encode_fst]
    change decode n (packTD wordSize false (offsetOf (.dbcnt i))) wdata = _ ∧ _
    split
    · next hi =>
      have hr : (Reg.dbcnt i).inBlock n := hi
      exact ⟨decode_packTD_offsetOf (regAt_offsetOf hr) false wdata,
        decode_packTD_offsetOf (regAt_offsetOf hr) true wdata⟩
    · next hi =>
      have hr : ¬ (Reg.dbcnt i).inBlock n := hi
      exact ⟨decode_packTD_unmapped hr false wdata, decode_packTD_unmapped hr true wdata⟩

/-! ## Two reads of the flags in a row -/

/-- The changed vector depends on the flags of the lanes below N only. -/
theorem changedVec_congr {s t : State} (hn : s.params.n ≤ 16) (hparams : t.params = s.params)
    (h : ∀ j, j < s.params.n → ((t.chan j).changed = true ↔ (s.chan j).changed = true)) :
    changedVec t = changedVec s := by
  apply BitVec.eq_of_getLsbD_eq
  intro j _
  unfold changedVec
  rw [Bool.eq_iff_iff, getLsbD_laneVec_chan (by rwa [hparams]) rfl, getLsbD_laneVec_chan hn rfl, hparams]
  exact and_congr_right (h j)

theorem changedVec_eq_zero {s : State} (hn : s.params.n ≤ 16)
    (h : ∀ j, j < s.params.n → ¬ (s.chan j).changed = true) : changedVec s = 0#16 := by
  apply BitVec.eq_of_getLsbD_eq
  intro j _
  unfold changedVec
  rw [Bool.eq_iff_iff, getLsbD_laneVec_chan hn rfl]
  simpa using h j

section NoTransition

variable {s : State} (hn : s.params.n ≤ 16) (hlanes : s.ch.length = s.params.n) (hnone : ∀ i, ¬ Accepts s i)
include hn hlanes hnone

/-- With no accepted transition an edge with no effect keeps the changed vector. -/
theorem changedVec_clockEdge_quiet (r : Response) (wdata : Word) :
    changedVec (clockEdge s r noEffect wdata) = changedVec s := by
  refine changedVec_congr hn rfl fun j hj => ?_
  rw [clockEdge_flagsKept s r noEffect wdata rfl j (hlanes ▸ hj)]
  exact or_iff_left (hnone j)

/-- With no accepted transition an edge that clears the flags leaves none. -/
theorem changedVec_clockEdge_clears (r : Response) (wdata : Word) :
    changedVec (clockEdge s r { noEffect with clr := changedVec s } wdata) = 0#16 := by
  refine changedVec_eq_zero hn fun j hj => ?_
  rw [clockEdge_changed_of_clr hn r wdata rfl hj (hlanes ▸ hj)]
  exact hnone j

end NoTransition

/-- Settles O39: with no accepted transition a plain read keeps every flag, and an RD_EVENT leaves none. -/
theorem flagReadsAreIdempotent : Obligations.FlagReadsAreIdempotent := by
  unfold Obligations.FlagReadsAreIdempotent
  intro s t hlegal hlanes hnone
  have hn := le_sixteen_of_legal hlegal
  constructor
  · intro h
    rw [exec_of_done (i := .rdChanged) rfl] at h
    obtain rfl := Host.Outcome.next.inj h
    refine ⟨_, exec_of_done rfl, congrArg Response.okay ?_⟩
    rw [changedWord, changedVec_clockEdge_quiet hn hlanes hnone]
    rfl
  · intro h
    rw [exec_of_done (i := .rdEvent) rfl] at h
    obtain rfl := Host.Outcome.next.inj h
    have hvec := changedVec_clockEdge_clears hn hlanes hnone (.okay (eventWord s)) (encode .rdEvent).2
    refine ⟨_, _, exec_of_done rfl, congrArg Response.okay ?_, exec_of_done rfl, fun w hw => ?_⟩
    · rw [changedWord, hvec]
      rfl
    · obtain rfl := Response.okay.inj hw
      rw [eventWord, hvec, toNat_zero_append]
      exact (stableVec _).isLt

/-! ## One lane beside another -/

/-- Lane i after the edge of a transaction: the tick's part and the transaction's clear (40 R111). -/
theorem exec_chan {op : Instr} {i : Nat} {s t : State} (hi : i < s.ch.length) (h : exec op s = .next t) :
    t.chan i = mergeLane (performInstr op s).effect.clr i (s.chan i)
      (if tickDue s then tickLane s i (s.chan i) else holdLane (s.chan i)) := by
  rw [exec_eq_finish] at h
  obtain ⟨r, eff, hp, rfl⟩ | ⟨c, hp, rfl⟩ := finish_cases h
  · rw [hp]
    exact clockEdge_chan s _ _ _ hi
  · rw [hp]
    exact clockEdge_chan s (.error c) noEffect (encode op).2 hi

/-- Only an RD_EVENT clears flags, and it clears those it returns (43 R172). -/
theorem perform_clr (op : Instr) (s : State) :
    (performInstr op s).effect.clr = if op = .rdEvent then changedVec s else 0#16 := by
  by_cases hop : op = .rdEvent
  · subst hop
    rfl
  rw [if_neg hop]
  have heff := perform_effect op s
  generalize (performInstr op s).effect = eff at heff
  cases heff with
  | clears => exact absurd rfl hop
  | quiet | enables | storesPeriod | storesCount | storesCooldown => rfl

/-- A lane's part of a merge reads one bit of the clear. -/
theorem mergeLane_congr_clr {clr clr' : Half} {i : Nat} (h : clr.getLsbD i = clr'.getLsbD i) (c : Channel)
    (t : LaneTick) : mergeLane clr i c t = mergeLane clr' i c t := by
  simp only [mergeLane, h]

/-- A lane at a tick reads COOLDOWN and its own level (40 R110). -/
theorem tickLane_congr {s s' : State} {i : Nat} (hcooldown : s.cooldown = s'.cooldown)
    (hlevel : logicalLevel s i = logicalLevel s' i) (c : Channel) : tickLane s i c = tickLane s' i c := by
  simp only [tickLane, hcooldown, hlevel]

/-- Settles O40: what the edge makes of a lane is a function of the fields that agree. -/
theorem lanesDoNotInterfere : Obligations.LanesDoNotInterfere := by
  unfold Obligations.LanesDoNotInterfere
  intro op i s s' t t' hi hi' hchan hen htval hcooldown hn hraw hpolarity ht ht'
  have hdue : tickDue s = tickDue s' := by simp only [tickDue, hen, htval]
  have hlevel : logicalLevel s i = logicalLevel s' i := by rw [logicalLevel_eq, logicalLevel_eq, hraw, hpolarity]
  have hvec : (changedVec s).getLsbD i = (changedVec s').getLsbD i := by
    unfold changedVec
    rw [getLsbD_laneVec, getLsbD_laneVec, hn]
    change (_ && (s.chan i).changed) = (_ && (s'.chan i).changed)
    simp only [hi, hi', hchan]
  have hclr : (performInstr op s).effect.clr.getLsbD i = (performInstr op s').effect.clr.getLsbD i := by
    rw [perform_clr, perform_clr]
    split
    · exact hvec
    · rfl
  rw [exec_chan hi ht, exec_chan hi' ht', mergeLane_congr_clr hclr, hchan, hdue, tickLane_congr hcooldown hlevel]

end Sys2Proof.Machine
end

section
/-! PROOFS. The clock step refines the tick-level abstraction, step by step and over runs
(40_cycle_and_tick.md R116). -/

namespace Sys2Proof.Machine

open Sys2Proof

/-! ## The lanes of a merge -/

/-- The lanes at an edge that ticks (40 R104, R111). -/
theorem merge_tickUpdate_ch (s : State) (tvn : Word) (eff : Effect) (wdata : Word) :
    (merge s tvn (tickUpdate s) eff wdata).ch =
      s.ch.mapIdx fun i c => mergeLane eff.clr i c (tickLane s i c) := by
  apply List.ext_getElem
  · simp [tickUpdate]
  · intro i h h'
    simp [tickUpdate]

/-- The lanes at an edge with no tick: only the clear acts (40 R100, R111). -/
theorem merge_noTick_ch (s : State) (tvn : Word) (eff : Effect) (wdata : Word) :
    (merge s tvn (noTick s) eff wdata).ch = s.ch.mapIdx fun i c => mergeLane eff.clr i c (holdLane c) := by
  apply List.ext_getElem
  · simp [noTick]
  · intro i h h'
    simp [noTick]

/-- A clear and then a tick is a tick that clears: the tick does not read the flag. -/
theorem mergeLane_clear_then_tick (s : State) (clr : Half) (i : Nat) (c : Channel) :
    mergeLane 0#16 i (mergeLane clr i c (holdLane c)) (tickLane s i (mergeLane clr i c (holdLane c))) =
      mergeLane clr i c (tickLane s i c) := by
  have htick : tickLane s i (mergeLane clr i c (holdLane c)) = tickLane s i c := rfl
  rw [htick]
  simp [mergeLane, holdLane]

/-- After a lane's merge nothing is left to do for an edge with no tick and no clear. -/
theorem mergeLane_zero_hold (i : Nat) (c : Channel) : mergeLane 0#16 i c (holdLane c) = c := by
  simp [mergeLane, holdLane]

/-! ## The transaction's part of an edge, in the abstraction -/

/-- Two views with equal fields are equal. -/
theorem TickView.eq_of_fields {a b : TickView} (hparams : a.params = b.params) (hen : a.en = b.en)
    (hperiod : a.period = b.period) (hcount : a.count = b.count) (hcooldown : a.cooldown = b.cooldown)
    (hch : a.ch = b.ch) : a = b := by
  cases a
  cases b
  simp_all

/-- What a transaction's effect makes of a view, with no tick (40 R111). -/
def TickView.withEffect (a : TickView) (eff : Effect) (wdata : Word) : TickView :=
  { params := a.params
    en := if eff.setEN then true else a.en
    period := if eff.wrPERIOD then wdata else a.period
    count := if eff.wrCOUNT then wdata else a.count
    cooldown := if eff.wrCOOLDOWN then cooldownData wdata else a.cooldown
    ch := a.ch.mapIdx fun i c => mergeLane eff.clr i c (holdLane c) }

@[simp] theorem withEffect_ch (a : TickView) (eff : Effect) (wdata : Word) :
    (a.withEffect eff wdata).ch = a.ch.mapIdx fun i c => mergeLane eff.clr i c (holdLane c) := rfl

/-- No effect leaves the view as it is. -/
theorem TickView.withEffect_noEffect (a : TickView) (wdata : Word) : a.withEffect noEffect wdata = a := by
  have hch : (a.ch.mapIdx fun i c => mergeLane 0#16 i c (holdLane c)) = a.ch := by
    apply List.ext_getElem
    · simp
    · intro i h h'
      simp [mergeLane_zero_hold]
  exact TickView.eq_of_fields rfl rfl rfl rfl rfl hch

theorem tickView_merge_noTick (s : State) (tvn : Word) (eff : Effect) (wdata : Word) :
    tickView (merge s tvn (noTick s) eff wdata) = (tickView s).withEffect eff wdata := by
  simp only [tickView, merge_noTick_ch]
  rfl

/-- The transaction event is the effect of what `perform` gives, and its response. -/
theorem txnEvent_eq (phase : Word) (td : TD) (wdata : Word) (a : TickView) :
    txnEvent phase td wdata a =
      (a.withEffect (performTxn td wdata (a.toState phase 0#16)).effect wdata,
        (performTxn td wdata (a.toState phase 0#16)).response) := by
  simp only [txnEvent, tickView_merge_noTick, tickView_toState]

/-- The transaction event at the view of a state, with TVAL drawn. -/
theorem txnEvent_tickView (s : State) (td : TD) (wdata : Word) :
    txnEvent s.tval td wdata (tickView s) =
      ((tickView s).withEffect (performTxn td wdata s).effect wdata, (performTxn td wdata s).response) := by
  rw [txnEvent_eq, performTxn_toState]

/-- The tick event's lanes: each as at a tick with these levels. -/
theorem tickEvent_ch (raw : Half) (a : TickView) :
    (tickEvent raw a).ch = a.ch.mapIdx fun i c => mergeLane 0#16 i c (tickLane (a.toState 0#32 raw) i c) :=
  merge_tickUpdate_ch (a.toState 0#32 raw) 0#32 noEffect 0#32

/-- A lane at a tick is the same in a state and in a state of its view with its raw levels. -/
theorem tickLane_toState {s : State} {a : TickView} (hcooldown : a.cooldown = s.cooldown)
    (hparams : a.params = s.params) (phase : Word) (i : Nat) (c : Channel) :
    tickLane (a.toState phase s.raw) i c = tickLane s i c :=
  tickLane_congr hcooldown (by rw [logicalLevel_eq, logicalLevel_eq, toState_raw, toState_params, hparams]) c

/-! ## A clock edge, in the abstraction -/

section Edge

variable {s : State} (r : Response) (eff : Effect) (wdata : Word)

/-- An edge with no tick is its transaction's effect alone. -/
theorem tickView_clockEdge_of_not_tick (h : ¬ TickAt s) :
    tickView (clockEdge s r eff wdata) = (tickView s).withEffect eff wdata := by
  have hpart : tickPart s = noTick s := if_neg fun hdue => h ((tickDue_iff s).mp hdue)
  rw [← tickView_merge_noTick s (prescale s), ← hpart]
  rfl

theorem clockEdge_ch_of_tick (h : TickAt s) :
    (clockEdge s r eff wdata).ch = s.ch.mapIdx fun i c => mergeLane eff.clr i c (tickLane s i c) := by
  have hpart : tickPart s = tickUpdate s := if_pos ((tickDue_iff s).mpr h)
  rw [← merge_tickUpdate_ch s (prescale s) eff wdata, ← hpart]
  rfl

theorem clockEdge_count_of_tick (h : TickAt s) :
    (clockEdge s r eff wdata).count = if eff.wrCOUNT then wdata else satDec s.count := by
  have hpart : tickPart s = tickUpdate s := if_pos ((tickDue_iff s).mpr h)
  rw [clockEdge_count, hpart]
  rfl

/-- An edge that ticks and whose transaction at most clears flags is that clear and then the tick: the tick reads
no flag (40 R111 case 2). -/
theorem tickView_clockEdge_clear_then_tick (h : TickAt s) (clr : Half) :
    tickView (clockEdge s r { noEffect with clr := clr } wdata) =
      tickEvent s.raw ((tickView s).withEffect { noEffect with clr := clr } wdata) := by
  refine TickView.eq_of_fields rfl rfl rfl ?_ rfl ?_
  · rw [tickView_count, clockEdge_count_of_tick _ _ _ h]
    rfl
  · rw [tickView_ch, clockEdge_ch_of_tick _ _ _ h, tickEvent_ch, withEffect_ch, List.mapIdx_mapIdx]
    congr 1
    funext i c
    exact ((congrArg _ (tickLane_toState rfl rfl 0#32 i _)).trans (mergeLane_clear_then_tick s clr i c)).symm

/-- An edge that ticks and whose transaction clears no flag is the tick and then its effect: a write of COUNT wins
over the decrement (40 R111 case 1). -/
theorem tickView_clockEdge_tick_then_effect (h : TickAt s) (hclr : eff.clr = 0#16) :
    tickView (clockEdge s r eff wdata) = (tickEvent s.raw (tickView s)).withEffect eff wdata := by
  refine TickView.eq_of_fields rfl rfl rfl (clockEdge_count_of_tick r eff wdata h) rfl ?_
  rw [tickView_ch, clockEdge_ch_of_tick _ _ _ h, withEffect_ch, tickEvent_ch, List.mapIdx_mapIdx, hclr]
  congr 1
  funext i c
  exact ((mergeLane_zero_hold i _).trans (congrArg _ (tickLane_toState rfl rfl 0#32 i c))).symm

end Edge

/-! ## The effect and the response of a presented descriptor -/

theorem performTxn_of_op {td : TD} {wdata : Word} {s : State} {i : Instr}
    (h : decode s.params.n td wdata = .op i) : performTxn td wdata s = performInstr i s := by
  simp [performTxn, h]

theorem performTxn_of_error {td : TD} {wdata : Word} {s : State} {cause : Cause}
    (h : decode s.params.n td wdata = .error cause) : performTxn td wdata s = .raise cause := by
  simp [performTxn, h]

/-- What `perform` gives does not read the inputs of the cycle. -/
theorem performTxn_beginCycle (td : TD) (wdata : Word) (s : State) :
    performTxn td wdata (beginCycle s) = performTxn td wdata s := by
  rw [← performTxn_toState td wdata (beginCycle s) 0#16, ← performTxn_toState td wdata s 0#16, tickView_beginCycle,
    beginCycle_tval]

/-- A read can do no more than clear flags (40 R111). -/
theorem performTxn_effect_of_read {td : TD} (hread : tdWrite td = false) (wdata : Word) (s : State) :
    ∃ clr, (performTxn td wdata s).effect = { noEffect with clr := clr } := by
  cases hd : decode s.params.n td wdata with
  | error cause =>
    rw [performTxn_of_error hd]
    exact ⟨0#16, rfl⟩
  | op i =>
    obtain ⟨-, -, -, hwrite⟩ := acceptedDescriptorIsTheEncoding _ _ _ _ hd
    replace hread : i.isWrite = false := hwrite.trans hread
    rw [performTxn_of_op hd]
    have heff := perform_effect i s
    generalize (performInstr i s).effect = eff at heff
    cases heff with
    | quiet => exact ⟨0#16, rfl⟩
    | clears => exact ⟨changedVec s, rfl⟩
    | enables | storesPeriod | storesCount | storesCooldown => contradiction

/-- A write clears no flag. -/
theorem performTxn_clr_of_write {td : TD} (hwr : tdWrite td = true) (wdata : Word) (s : State) :
    (performTxn td wdata s).effect.clr = 0#16 := by
  cases hd : decode s.params.n td wdata with
  | error cause =>
    rw [performTxn_of_error hd]
    rfl
  | op i =>
    obtain ⟨-, -, -, hwrite⟩ := acceptedDescriptorIsTheEncoding _ _ _ _ hd
    replace hwr : i.isWrite = true := hwrite.trans hwr
    rw [performTxn_of_op hd, perform_clr, if_neg]
    rintro rfl
    contradiction

/-- A write reads of the state only what no tick changes: EN, PERIOD and the number of channels. -/
theorem performTxn_congr_of_write {td : TD} (hwr : tdWrite td = true) (wdata : Word) {s s' : State}
    (hparams : s.params = s'.params) (hen : s.en = s'.en) (hperiod : s.period = s'.period) :
    performTxn td wdata s = performTxn td wdata s' := by
  cases hd : decode s.params.n td wdata with
  | error cause => rw [performTxn_of_error hd, performTxn_of_error (hparams ▸ hd)]
  | op i =>
    obtain ⟨-, -, -, hwrite⟩ := acceptedDescriptorIsTheEncoding _ _ _ _ hd
    replace hwr : i.isWrite = true := hwrite.trans hwr
    rw [performTxn_of_op hd, performTxn_of_op (hparams ▸ hd)]
    cases i with
    | wrCtrl w => simp only [performInstr, performWrCtrl, hen, hperiod]
    | wrPeriod w => simp only [performInstr, performWrPeriod, hen]
    | wrCooldown w => simp only [performInstr, performWrCooldown, hen]
    | wrCount w => rfl
    | rdCtrl | rdPeriod | rdTval | rdCount | rdCooldown | rdCfg | rdState | rdDbcnt | rdChanged | rdEvent =>
      contradiction

/-! ## One step -/

/-- A finished transaction is the clock edge of what `perform` gives, up to the fault record. -/
theorem finish_eq {i : Instr} {p : Performed} {s t : State} (h : finish i p s = .next t) :
    ∃ fs, t = { clockEdge s p.response p.effect (encode i).2 with faults := fs } := by
  obtain ⟨r, eff, rfl, rfl⟩ | ⟨c, rfl, rfl⟩ := finish_cases h
  · exact ⟨s.faults, rfl⟩
  · exact ⟨_, busErrorEdge_eq c _ _ s⟩

/-- A step that presents a descriptor is, in the view and in the response, the clock edge of what `perform` gives
for it (40 R100). -/
theorem step_of_present {s t : State} {td : TD} {wdata : Word} (hr : (nextCycle s).rstN = true)
    (hq : (nextCycle s).req.present = some (td, wdata)) (h : step s = .next t) :
    t.resp = (performTxn td wdata s).response ∧
      tickView t =
        tickView (clockEdge (beginCycle s) t.resp (performTxn td wdata s).effect wdata) := by
  cases hd : decode s.params.n td wdata with
  | error cause =>
    rw [step_of_error hr (decodeRequest_of_error hq hd), noteFetch_eq] at h
    obtain rfl := Host.Outcome.next.inj h
    rw [performTxn_of_error hd]
    exact ⟨rfl, rfl⟩
  | op i =>
    rw [step_of_op hr (decodeRequest_of_op hq hd), exec_eq_finish, performInstr_noteFetch, noteFetch_eq] at h
    obtain ⟨fs, rfl⟩ := finish_eq h
    rw [← performTxn_beginCycle, performTxn_of_op (i := i) (by rwa [beginCycle_params])]
    refine ⟨rfl, ?_⟩
    obtain ⟨-, -, hdata, hwrite⟩ := acceptedDescriptorIsTheEncoding _ _ _ _ hd
    cases hw : i.isWrite with
    | true => rw [← hdata hw]; rfl
    | false =>
      obtain ⟨clr, hclr⟩ := performTxn_effect_of_read (hwrite.symm.trans hw) wdata s
      rw [← performTxn_of_op (wdata := wdata) (td := td) (i := i) (by rwa [beginCycle_params]),
        performTxn_beginCycle, hclr]
      rfl

/-- Settles O41, along the kinds of cycles. -/
theorem clockStepRefinesTickModel : Obligations.ClockStepRefinesTickModel := by
  unfold Obligations.ClockStepRefinesTickModel
  intro s t hr h
  refine ⟨fun td wdata hq => ?_, fun hq => ?_⟩
  · obtain ⟨hresp, hview⟩ := step_of_present hr hq h
    rw [txnEvent_tickView]
    refine ⟨fun htick hread => ⟨?_, hresp⟩, fun htick hwr => ?_, fun hstill => ?_⟩
    · obtain ⟨clr, hclr⟩ := performTxn_effect_of_read hread wdata s
      rw [hview, hclr, tickView_clockEdge_clear_then_tick _ _ (by simpa using htick), beginCycle_raw,
        tickView_beginCycle]
    · have hafter : performTxn td wdata ((tickEvent (nextCycle s).raw (tickView s)).toState s.tval 0#16) =
          performTxn td wdata s := performTxn_congr_of_write hwr wdata rfl rfl rfl
      rw [txnEvent_eq, hafter, hview, hresp,
        tickView_clockEdge_tick_then_effect _ _ _ (by simpa using htick) (performTxn_clr_of_write hwr wdata s),
        beginCycle_raw, tickView_beginCycle]
    · rw [hview, tickView_clockEdge_of_not_tick _ _ _ (by simpa using hstill), hresp, tickView_beginCycle]
  · rw [step_of_idle hr (present_eq_none_iff.mp hq)] at h
    obtain rfl := Host.Outcome.next.inj h
    refine ⟨rfl, fun htick => ?_, fun hstill => ?_⟩
    · rw [idleEdge, tickView_clockEdge_tick_then_effect _ _ _ (by simpa using htick) rfl,
        TickView.withEffect_noEffect, beginCycle_raw, tickView_beginCycle]
    · rw [idleEdge, tickView_clockEdge_of_not_tick _ _ _ (by simpa using hstill),
        TickView.withEffect_noEffect, tickView_beginCycle]

/-! ## Runs -/

theorem responsesIn_succ {k : Nat} {s u : State} (h : step s = .next u) :
    responsesIn (k + 1) s = u.resp.given ++ responsesIn k u := by
  simp [responsesIn, h]

theorem eventsIn_succ {k : Nat} {s u : State} (h : step s = .next u) :
    eventsIn (k + 1) s = edgeEvents s ++ eventsIn k u := by
  simp [eventsIn, h]

theorem dueTick_of_tick {s : State} (h : TickAt s) : dueTick s = [.tick (nextCycle s).raw] :=
  if_pos ((tickDue_iff s).mpr h)

theorem dueTick_of_not_tick {s : State} (h : ¬ TickAt s) : dueTick s = [] :=
  if_neg fun hdue => h ((tickDue_iff s).mp hdue)

/-- A transaction gives one response. -/
theorem performed_response_given (p : Performed) : p.response.given = [p.response] := by
  cases p <;> rfl

/-- A transaction event does not clear EN (10 R21). -/
theorem txnEvent_en_of_running {a : TickView} (hen : a.en = true) (phase : Word) (td : TD) (wdata : Word) :
    (txnEvent phase td wdata a).1.en = true := by
  simp [txnEvent_eq, TickView.withEffect, hen]

theorem edgeEvents_of_idle {s : State} (hq : (nextCycle s).req.present = none) : edgeEvents s = dueTick s := by
  simp [edgeEvents, hq]

theorem edgeEvents_of_present {s : State} {td : TD} {wdata : Word}
    (hq : (nextCycle s).req.present = some (td, wdata)) :
    edgeEvents s = if tdWrite td then dueTick s ++ [.txn s.tval td wdata] else .txn s.tval td wdata :: dueTick s := by
  simp [edgeEvents, hq]

/-- The events of a step lead from view to view with the step's response, and its tick comes while EN is 1. -/
theorem runEvents_edgeEvents {s u : State} (hr : (nextCycle s).rstN = true) (h : step s = .next u) :
    runEvents (edgeEvents s) (tickView s) = (tickView u, u.resp.given) ∧
      TicksArmed (edgeEvents s) (tickView s) := by
  obtain ⟨htxn, hidle⟩ := clockStepRefinesTickModel s u hr h
  cases hq : (nextCycle s).req.present with
  | none =>
    obtain ⟨hresp, htick, hstill⟩ := hidle hq
    rw [edgeEvents_of_idle hq, hresp]
    by_cases hdue : TickAt s
    · rw [dueTick_of_tick hdue, htick hdue]
      exact ⟨rfl, hdue.1, trivial⟩
    · rw [dueTick_of_not_tick hdue, hstill hdue]
      exact ⟨rfl, trivial⟩
  | some tw =>
    obtain ⟨td, wdata⟩ := tw
    obtain ⟨hread, hwrite, hstill⟩ := htxn td wdata hq
    have hgiven : u.resp.given = [u.resp] := by
      rw [(step_of_present hr hq h).1, performed_response_given]
    rw [edgeEvents_of_present hq, hgiven]
    by_cases hdue : TickAt s
    · rw [dueTick_of_tick hdue]
      cases hw : tdWrite td with
      | false =>
        obtain ⟨hview, hresp⟩ := hread hdue hw
        rw [hview, hresp]
        exact ⟨rfl, txnEvent_en_of_running hdue.1 _ _ _, trivial⟩
      | true =>
        obtain ⟨hview, hresp⟩ := Prod.ext_iff.mp (hwrite hdue hw)
        exact ⟨Prod.ext hview.symm (congrArg (fun r => [r]) hresp.symm), hdue.1, trivial⟩
    · obtain ⟨hview, hresp⟩ := Prod.ext_iff.mp (hstill hdue)
      rw [dueTick_of_not_tick hdue, List.nil_append, ite_self]
      exact ⟨Prod.ext hview.symm (congrArg (fun r => [r]) hresp.symm), trivial⟩

/-- Settles O43, by induction on the steps: the events of the first step and those of the rest are put together. -/
theorem everyRunIsATickModelRun : Obligations.EveryRunIsATickModelRun := by
  unfold Obligations.EveryRunIsATickModelRun
  intro k
  induction k with
  | zero =>
    rintro s t - ⟨⟩
    exact ⟨rfl, trivial⟩
  | succ k ih =>
    intro s t hrel h
    obtain ⟨u, hu, ht⟩ := after_succ.mp h
    obtain ⟨hfirst, harmed⟩ := runEvents_edgeEvents hrel.head hu
    obtain ⟨hrest, harmed'⟩ := ih u t (hrel.tail hu) ht
    rw [eventsIn_succ hu, responsesIn_succ hu, runEvents_append, ticksArmed_append, hfirst, hrest]
    exact ⟨rfl, harmed, harmed'⟩

end Sys2Proof.Machine
end
